-- ==== Sys2Proof/Word.lean ====
section
/-! DEFINITION. The word types of the block (spec 00_scope R7, 30_encoding R101 to R103) and the plain
type of a byte memory. -/

namespace Sys2Proof

/-- Every datum on the bus, every VIA register and every pin mask: 8 bits (R7). -/
abbrev Byte := BitVec 8

/-- A bus address, and a device-local offset: 16 bits (R7, R61). -/
abbrev Addr := BitVec 16

/-- One bus transaction as a word of 25 bits, format BUS (R102). -/
abbrev BusWord := BitVec 25

/-- One access at the VIA's own interface, format VIA (R101): `rw` in bit 4, `rs` in bits 3:0. -/
abbrev ViaWord := BitVec 5

/-- The VIA's register select (R62). -/
abbrev RegSel := BitVec 4

/-- The code of a host event, format EVT (R103). -/
abbrev EvtCode := BitVec 3

/-- A byte memory by local offset: cells (offset, byte) in the canonical form of Machine/Memory.lean. -/
abbrev Memory := List Host.Cell

end Sys2Proof
end

