-- ==== Sys2Proof/Machine/Flags.lean ====
section
/-! DEFINITION. The block has no flags and no condition codes (10_state R38). What stands in their place are the
four control-mode fields of the PCR (10_state R28, 30_encoding R108), extracted by the two functions of
41_via_registers R172 and R173; nothing in the block consumes them. -/

namespace Sys2Proof

/-- The offsets the two extraction functions admit (R108, 92 D28). -/
def controlOffsetOk (n : Nat) : Bool := n == 0 || n == 4

/-- `control1Mode(offset)`: the bit at `offset` (R172). -/
def control1Mode (pcr : Byte) (offset : Nat) : BitVec 1 := (pcr >>> offset).extractLsb' 0 1

/-- `control2Mode(offset)`: the three bits from `offset + 1` (R173). -/
def control2Mode (pcr : Byte) (offset : Nat) : BitVec 3 := (pcr >>> (offset + 1)).extractLsb' 0 3

end Sys2Proof
end

