-- ==== Sys2Proof/Config.lean ====
section
/-! DEFINITION. What is fixed for one machine: the constants of spec 00_scope R8, the parameters R8 leaves
open (held in State as plain data that no step changes), and the free values of the environment. -/

namespace Sys2Proof

/-- What a write into the ROM's range does (60_exceptions R264, 92 O7): `fault` is the default. -/
inductive RomWritePolicy where
  | fault
  | ignore
  deriving DecidableEq, Repr

/-- The parameters a model takes (R8, R39, 92 O1 to O7). `RAM_INIT` is the RAM a machine is constructed
with (`Machine.State.construct`); `PORT_A` and `PORT_B` are built by VIA_ATTACH_A and VIA_ATTACH_B. -/
structure Params where
  /-- `RAM_SIZE`, the RAM's capacity in bytes. -/
  ramSize : Nat
  /-- `ROM_SIZE`, the ROM image's length in bytes. -/
  romSize : Nat
  /-- `ROM_IMAGE`, by local offset. -/
  romImage : Memory
  /-- `HAS_ROM`: whether the start-up attaches a ROM. -/
  hasRom : Bool
  /-- `ROM_WRITE_POLICY`. -/
  romWritePolicy : RomWritePolicy
  /-- `DIAG_BINARY`. -/
  diagBinary : Bool
  /-- `DIAG_ASCII`. -/
  diagAscii : Bool
  deriving DecidableEq, Repr

/-- The parameters of the machine `Machine.State.reset` is. DESIGN CHOICE (log entry 1): the sizes are those of
the start state of 95_test_vectors, the image is all 0x00; the defaults true, fault, false, false are R8's and
R264's. -/
def Params.default : Params where
  ramSize := 0x8000
  romSize := 0x2000
  romImage := []
  hasRom := true
  romWritePolicy := .fault
  diagBinary := false
  diagAscii := false

/-- The bounds R8 and R70 put on the sizes in the fixed map. -/
abbrev Params.FixedMapSizes (p : Params) : Prop :=
  1 ≤ p.ramSize ∧ p.ramSize ≤ 0xC000 ∧ 1 ≤ p.romSize ∧ p.romSize ≤ 0x2000

namespace Config

/-- `RAM_BASE` (R8). -/
def ramBase : Addr := 0x0000
/-- `VIA_BASE` (R8). -/
def viaBase : Addr := 0xC000
/-- `ROM_BASE` (R8). -/
def romBase : Addr := 0xE000
/-- `VIA_SIZE` (R8). -/
def viaSize : Nat := 16

/-- `RAM_INIT` of `Machine.State.reset`. DESIGN CHOICE (log entry 2): every byte 0x00; the spec leaves it open. -/
def ramInit : Memory := []

/-- FREE VALUE (R226, 93 U17, log entry 6): the byte the n-th `Read()` call of any peripheral returns, where the
environment's list `World.reads` has run out. -/
opaque peripheralRead : Nat → Byte

/-- FREE VALUE (R227, 93 U20, log entry 7): whether the n-th `Shutdown()` call of any peripheral succeeds, where
the environment's list `World.reports` has run out. -/
opaque shutdownSucceeds : Nat → Bool

end Config

end Sys2Proof
end

