-- ==== Sys2Proof/Syntax.lean ====
section
/-! DEFINITION. The operations of the block: one constructor of `Instr` per row of spec/opcode_table.json, the
operands they carry, and the raw requests they are decoded from (30_encoding R101 to R103). -/

namespace Sys2Proof

/-- The VIA's two ports (R1). -/
inductive Port where
  | a
  | b
  deriving DecidableEq, Repr

/-- The direction of a bus transaction (R102 `rw`; R260 records it). -/
inductive Direction where
  | read
  | write
  deriving DecidableEq, Repr

/-- The three Addressable Devices of this hardware (40_address_bus R132). -/
inductive Device where
  | ram
  | via
  | rom
  deriving DecidableEq, Repr

/-- A Parallel Peripheral as the block holds it (42 R220, R221, R228, R232): its pin mask, read once at
attachment and kept, its display name, and an identity by which a second attachment is recognised (R174 corner
case 4). Its inside is outside the block (R226). -/
structure Peripheral where
  id : Nat
  mask : Byte
  name : String
  deriving DecidableEq, Repr

/-- One entry of `bus.att` (10_state R34). -/
structure Attachment where
  base : Addr
  size : Nat
  dev : Device
  label : String
  deriving DecidableEq, Repr

/-- The attachment list of the Address Bus, in attachment order (R34). -/
abbrev AddressMap := List Attachment

/-- The operands that stand beside a host event's code (R103). -/
inductive EvtArgs where
  | none
  | device (dev : Device) (label : String) (base : Addr)
  | peripheral (p : Peripheral)
  | offset (n : Nat)
  deriving DecidableEq, Repr

/-- One operation as it is issued to the block: a BUS word (R102), or a host event's code with its operands
(R103). -/
inductive Request where
  | bus (w : BusWord)
  | evt (code : EvtCode) (args : EvtArgs)
  deriving DecidableEq, Repr

/-- The symbolic addresses of the notation (R115), valid in the fixed map. -/
inductive Symbol where
  | orb
  | irb
  | ora
  | ira
  | ddrb
  | ddra
  | pcr
  deriving DecidableEq, Repr

/-- The operations (R17), in the order of spec/opcode_table.json. -/
inductive Instr where
  /-- BUS_RD (R135), the generic read. -/
  | busRd (addr : Addr)
  /-- BUS_WR (R136), the generic write. -/
  | busWr (addr : Addr) (data : Byte)
  /-- RAM_RD (R137). -/
  | ramRd (off : Addr)
  /-- RAM_WR (R138). -/
  | ramWr (off : Addr) (data : Byte)
  /-- WR_ORB (R160). -/
  | wrOrb (data : Byte)
  /-- RD_IRB (R161). -/
  | rdIrb
  /-- WR_ORA (R162). -/
  | wrOra (data : Byte)
  /-- RD_IRA (R163). -/
  | rdIra
  /-- WR_DDRB (R164). -/
  | wrDdrb (data : Byte)
  /-- RD_DDRB (R165). -/
  | rdDdrb
  /-- WR_DDRA (R166). -/
  | wrDdra (data : Byte)
  /-- RD_DDRA (R167). -/
  | rdDdra
  /-- WR_UNH_4 (R176). -/
  | wrUnh4 (data : Byte)
  /-- RD_UNH_4 (R177). -/
  | rdUnh4
  /-- WR_UNH_5 (R178). -/
  | wrUnh5 (data : Byte)
  /-- RD_UNH_5 (R179). -/
  | rdUnh5
  /-- WR_UNH_6 (R180). -/
  | wrUnh6 (data : Byte)
  /-- RD_UNH_6 (R181). -/
  | rdUnh6
  /-- WR_UNH_7 (R182). -/
  | wrUnh7 (data : Byte)
  /-- RD_UNH_7 (R183). -/
  | rdUnh7
  /-- WR_UNH_8 (R184). -/
  | wrUnh8 (data : Byte)
  /-- RD_UNH_8 (R185). -/
  | rdUnh8
  /-- WR_UNH_9 (R186). -/
  | wrUnh9 (data : Byte)
  /-- RD_UNH_9 (R187). -/
  | rdUnh9
  /-- WR_UNH_A (R188). -/
  | wrUnhA (data : Byte)
  /-- RD_UNH_A (R189). -/
  | rdUnhA
  /-- WR_UNH_B (R190). -/
  | wrUnhB (data : Byte)
  /-- RD_UNH_B (R191). -/
  | rdUnhB
  /-- WR_PCR (R168). -/
  | wrPcr (data : Byte)
  /-- RD_PCR (R169). -/
  | rdPcr
  /-- WR_UNH_D (R192). -/
  | wrUnhD (data : Byte)
  /-- RD_UNH_D (R193). -/
  | rdUnhD
  /-- WR_UNH_E (R194). -/
  | wrUnhE (data : Byte)
  /-- RD_UNH_E (R195). -/
  | rdUnhE
  /-- WR_UNH_F (R196). -/
  | wrUnhF (data : Byte)
  /-- RD_UNH_F (R197). -/
  | rdUnhF
  /-- ROM_RD (R139). -/
  | romRd (off : Addr)
  /-- ROM_WR (R140). The operand is the bus address the fault records (R260), `0xE000 + off` in the fixed map. -/
  | romWr (addr : Addr) (data : Byte)
  /-- UNMAPPED_RD (R141). -/
  | unmappedRd (addr : Addr)
  /-- UNMAPPED_WR (R142). -/
  | unmappedWr (addr : Addr) (data : Byte)
  /-- BUS_ATTACH (R131). -/
  | busAttach (dev : Device) (label : String) (base : Addr)
  /-- VIA_ATTACH_A (R174). -/
  | viaAttachA (p : Peripheral)
  /-- VIA_ATTACH_B (R175). -/
  | viaAttachB (p : Peripheral)
  /-- VIA_RESET (R171). -/
  | viaReset
  /-- VIA_SHUTDOWN (R198). -/
  | viaShutdown
  /-- CTRL1_MODE (R172). -/
  | ctrl1Mode (offset : Nat)
  /-- CTRL2_MODE (R173). -/
  | ctrl2Mode (offset : Nat)
  /-- RAM_SNAPSHOT (43 R248). -/
  | ramSnapshot
  deriving DecidableEq, Repr

end Sys2Proof
end

