-- ==== Sys2Proof/Machine/AddressMap.lean ====
section
/-! DEFINITION. Ranges, overlap, the owner of an address, and the fixed memory map (20_memory R65 to R70,
40_address_bus R133, R134, R147). All sums are on natural numbers, so no range end wraps (R65). -/

namespace Sys2Proof

/-- The size a device declares (R132). -/
def Device.size (p : Params) : Device → Nat
  | .ram => p.ramSize
  | .via => Config.viaSize
  | .rom => p.romSize

/-- One past the last address of an attachment's range (R65). -/
def Attachment.limit (t : Attachment) : Nat := t.base.toNat + t.size

/-- Range containment (R65): `base <= a < base + size`. -/
def Attachment.owns (t : Attachment) (a : Addr) : Bool :=
  decide (t.base.toNat ≤ a.toNat) && decide (a.toNat < t.limit)

/-- The attachment that owns an address (R134 `owner(a)`). -/
def AddressMap.owner (m : AddressMap) (a : Addr) : Option Attachment := m.find? (fun t => t.owns a)

/-- The overlap predicate of R133 on two half-open ranges. -/
def rangesOverlap (b₁ s₁ b₂ s₂ : Nat) : Bool := decide (b₁ < b₂ + s₂) && decide (b₂ < b₁ + s₁)

/-- The address is in the ROM's range (R140). -/
def AddressMap.romOwns (m : AddressMap) (a : Addr) : Bool :=
  match m.owner a with
  | some t => t.dev == Device.rom
  | none => false

/-- Two attachments share an address (R133). -/
def Attachment.overlaps (t u : Attachment) : Bool :=
  rangesOverlap t.base.toNat t.size u.base.toNat u.size

/-- The local offset a device is given (R61, R104). -/
def Attachment.offset (t : Attachment) (a : Addr) : Addr := a - t.base

/-- The base of the first attachment of a device. -/
def AddressMap.baseOf (m : AddressMap) (d : Device) : Option Addr :=
  (m.find? (fun t => t.dev == d)).map (fun t => t.base)

/-- The fixed memory map (R70, R147); the ROM only with HAS_ROM. -/
def fixedMap (p : Params) : AddressMap :=
  [⟨Config.ramBase, p.ramSize, .ram, "RAM"⟩, ⟨Config.viaBase, Config.viaSize, .via, "VIA"⟩]
    ++ (if p.hasRom then [⟨Config.romBase, p.romSize, .rom, "ROM"⟩] else [])

/-- A map every attachment of which BUS_ATTACH could have admitted (R34, R131): sizes declared by the devices, at
least 1, no range past 0xFFFF, no two ranges sharing an address. -/
abbrev AddressMap.Admitted (p : Params) (m : AddressMap) : Prop :=
  (∀ t ∈ m, t.size = t.dev.size p ∧ 1 ≤ t.size ∧ t.limit ≤ 0x10000) ∧
    m.Pairwise (fun t u => t.overlaps u = false)

end Sys2Proof
end

