-- ==== Sys2Proof/WellFormed.lean ====
section
/-! DEFINITION. Which operations are well formed: the operand conditions the rules state (R132, R137 to R142,
R172, R173), for the parameters and the attachment list of the machine they are issued to. -/

namespace Sys2Proof

/-- Every operand is one the operation's rule admits. -/
def Instr.wellFormed (p : Params) (m : AddressMap) : Instr → Bool
  | .busRd _ => true
  | .busWr _ _ => true
  | .ramRd off => decide (off.toNat < p.ramSize)
  | .ramWr off _ => decide (off.toNat < p.ramSize)
  | .wrOrb _ => true
  | .rdIrb => true
  | .wrOra _ => true
  | .rdIra => true
  | .wrDdrb _ => true
  | .rdDdrb => true
  | .wrDdra _ => true
  | .rdDdra => true
  | .wrUnh4 _ => true
  | .rdUnh4 => true
  | .wrUnh5 _ => true
  | .rdUnh5 => true
  | .wrUnh6 _ => true
  | .rdUnh6 => true
  | .wrUnh7 _ => true
  | .rdUnh7 => true
  | .wrUnh8 _ => true
  | .rdUnh8 => true
  | .wrUnh9 _ => true
  | .rdUnh9 => true
  | .wrUnhA _ => true
  | .rdUnhA => true
  | .wrUnhB _ => true
  | .rdUnhB => true
  | .wrPcr _ => true
  | .rdPcr => true
  | .wrUnhD _ => true
  | .rdUnhD => true
  | .wrUnhE _ => true
  | .rdUnhE => true
  | .wrUnhF _ => true
  | .rdUnhF => true
  | .romRd off => decide (off.toNat < p.romSize)
  | .romWr a _ => m.romOwns a
  | .unmappedRd a => (m.owner a).isNone
  | .unmappedWr a _ => (m.owner a).isNone
  | .busAttach _ _ _ => true
  | .viaAttachA _ => true
  | .viaAttachB _ => true
  | .viaReset => true
  | .viaShutdown => true
  | .ctrl1Mode n => controlOffsetOk n
  | .ctrl2Mode n => controlOffsetOk n
  | .ramSnapshot => true

/-- The two generic rows of the table (R107): a BUS word always decodes to a leaf row. -/
def Instr.isGeneric : Instr → Bool
  | .busRd _ => true
  | .busWr _ _ => true
  | .ramRd _ => false
  | .ramWr _ _ => false
  | .wrOrb _ => false
  | .rdIrb => false
  | .wrOra _ => false
  | .rdIra => false
  | .wrDdrb _ => false
  | .rdDdrb => false
  | .wrDdra _ => false
  | .rdDdra => false
  | .wrUnh4 _ => false
  | .rdUnh4 => false
  | .wrUnh5 _ => false
  | .rdUnh5 => false
  | .wrUnh6 _ => false
  | .rdUnh6 => false
  | .wrUnh7 _ => false
  | .rdUnh7 => false
  | .wrUnh8 _ => false
  | .rdUnh8 => false
  | .wrUnh9 _ => false
  | .rdUnh9 => false
  | .wrUnhA _ => false
  | .rdUnhA => false
  | .wrUnhB _ => false
  | .rdUnhB => false
  | .wrPcr _ => false
  | .rdPcr => false
  | .wrUnhD _ => false
  | .rdUnhD => false
  | .wrUnhE _ => false
  | .rdUnhE => false
  | .wrUnhF _ => false
  | .rdUnhF => false
  | .romRd _ => false
  | .romWr _ _ => false
  | .unmappedRd _ => false
  | .unmappedWr _ _ => false
  | .busAttach _ _ _ => false
  | .viaAttachA _ => false
  | .viaAttachB _ => false
  | .viaReset => false
  | .viaShutdown => false
  | .ctrl1Mode _ => false
  | .ctrl2Mode _ => false
  | .ramSnapshot => false

end Sys2Proof
end

