-- ==== Sys2Proof/Decode.lean ====
section
/-! DEFINITION. Decoding (30_encoding R101 to R107, R112, R113), total on every request and rejecting by name,
and the encoder written from the same tables. -/

namespace Sys2Proof

/-- Why a request names no operation. -/
inductive DecodeError where
  /-- The VIA's attachment gives it a local offset of 16 or more: refused, never reduced modulo 16 (R62, R199,
  92 D12). Cannot arise on an admitted map. -/
  | viaOffset (off : Addr)
  /-- A host event without the operands R103 gives its code. -/
  | operands (code : EvtCode)
  deriving DecidableEq, Repr

/-! ## The fields of the words -/

/-- BUS bit 24 (R102): 1 is a read. -/
def BusWord.isRead (w : BusWord) : Bool := w.getLsbD 24
/-- BUS bits 23:8 (R102). -/
def BusWord.addr (w : BusWord) : Addr := w.extractLsb' 8 16
/-- BUS bits 7:0 (R102); ignored on a read. -/
def BusWord.data (w : BusWord) : Byte := w.extractLsb' 0 8
/-- A BUS word from its three fields (R102). -/
def BusWord.make (read : Bool) (a : Addr) (d : Byte) : BusWord := BitVec.ofBool read ++ a ++ d

/-- VIA bit 4 (R101): 1 is a read. -/
def ViaWord.isRead (w : ViaWord) : Bool := w.getLsbD 4
/-- VIA bits 3:0 (R101). -/
def ViaWord.rs (w : ViaWord) : RegSel := w.extractLsb' 0 4
/-- A VIA word from its two fields (R101). -/
def ViaWord.make (read : Bool) (rs : RegSel) : ViaWord := BitVec.ofBool read ++ rs

/-! ## Decoding -/

/-- The VIA read that a register select names (R100). -/
def decodeViaRead (rs : RegSel) : Instr :=
  match rs.toNat with
  | 0x0 => .rdIrb
  | 0x1 => .rdIra
  | 0x2 => .rdDdrb
  | 0x3 => .rdDdra
  | 0x4 => .rdUnh4
  | 0x5 => .rdUnh5
  | 0x6 => .rdUnh6
  | 0x7 => .rdUnh7
  | 0x8 => .rdUnh8
  | 0x9 => .rdUnh9
  | 0xA => .rdUnhA
  | 0xB => .rdUnhB
  | 0xC => .rdPcr
  | 0xD => .rdUnhD
  | 0xE => .rdUnhE
  | _ => .rdUnhF

/-- The VIA write that a register select names (R100). -/
def decodeViaWrite (rs : RegSel) (d : Byte) : Instr :=
  match rs.toNat with
  | 0x0 => .wrOrb d
  | 0x1 => .wrOra d
  | 0x2 => .wrDdrb d
  | 0x3 => .wrDdra d
  | 0x4 => .wrUnh4 d
  | 0x5 => .wrUnh5 d
  | 0x6 => .wrUnh6 d
  | 0x7 => .wrUnh7 d
  | 0x8 => .wrUnh8 d
  | 0x9 => .wrUnh9 d
  | 0xA => .wrUnhA d
  | 0xB => .wrUnhB d
  | 0xC => .wrPcr d
  | 0xD => .wrUnhD d
  | 0xE => .wrUnhE d
  | _ => .wrUnhF d

/-- A VIA word with its data byte (R100, R101). -/
def decodeVia (w : ViaWord) (d : Byte) : Instr :=
  if w.isRead then decodeViaRead w.rs else decodeViaWrite w.rs d

/-- A device access: the operation that a local offset names (R104, R105). `a` is the bus address. -/
def decodeAccess (dev : Device) (read : Bool) (a off : Addr) (d : Byte) : Except DecodeError Instr :=
  match dev, read with
  | .ram, true => .ok (.ramRd off)
  | .ram, false => .ok (.ramWr off d)
  | .rom, true => .ok (.romRd off)
  | .rom, false => .ok (.romWr a d)
  | .via, r =>
    if off.toNat < Config.viaSize then .ok (decodeVia (ViaWord.make r (off.extractLsb' 0 4)) d)
    else .error (.viaOffset off)

/-- A BUS word, for a given attachment list (R104, R107, R113). -/
def decodeBus (m : AddressMap) (w : BusWord) : Except DecodeError Instr :=
  match m.owner w.addr with
  | some t => decodeAccess t.dev w.isRead w.addr (t.offset w.addr) w.data
  | none => .ok (if w.isRead then .unmappedRd w.addr else .unmappedWr w.addr w.data)

/-- A host event (R103). -/
def decodeEvt (code : EvtCode) (args : EvtArgs) : Except DecodeError Instr :=
  match code.toNat, args with
  | 0, .device dev label base => .ok (.busAttach dev label base)
  | 1, .peripheral p => .ok (.viaAttachA p)
  | 2, .peripheral p => .ok (.viaAttachB p)
  | 3, .none => .ok .viaReset
  | 4, .none => .ok .viaShutdown
  | 5, .offset n => .ok (.ctrl1Mode n)
  | 6, .offset n => .ok (.ctrl2Mode n)
  | 7, .none => .ok .ramSnapshot
  | _, _ => .error (.operands code)

/-- Every request is decoded or rejected by name. -/
def decode (m : AddressMap) : Request → Except DecodeError Instr
  | .bus w => decodeBus m w
  | .evt code args => decodeEvt code args

/-! ## Encoding -/

/-- The BUS word of an access at a local offset of a device: its base is the device's in the map. -/
def encodeAt (m : AddressMap) (dev : Device) (read : Bool) (off : Addr) (d : Byte) : Option Request :=
  (m.baseOf dev).map (fun b => .bus (BusWord.make read (b + off) d))

/-- The request of an operation (R100, R102, R103), for a given attachment list. A read's data field is 0x00
(R102). -/
def encode (m : AddressMap) : Instr → Option Request
  | .busRd a => some (.bus (BusWord.make true a 0))
  | .busWr a d => some (.bus (BusWord.make false a d))
  | .ramRd off => encodeAt m .ram true off 0
  | .ramWr off d => encodeAt m .ram false off d
  | .wrOrb d => encodeAt m .via false 0x0 d
  | .rdIrb => encodeAt m .via true 0x0 0
  | .wrOra d => encodeAt m .via false 0x1 d
  | .rdIra => encodeAt m .via true 0x1 0
  | .wrDdrb d => encodeAt m .via false 0x2 d
  | .rdDdrb => encodeAt m .via true 0x2 0
  | .wrDdra d => encodeAt m .via false 0x3 d
  | .rdDdra => encodeAt m .via true 0x3 0
  | .wrUnh4 d => encodeAt m .via false 0x4 d
  | .rdUnh4 => encodeAt m .via true 0x4 0
  | .wrUnh5 d => encodeAt m .via false 0x5 d
  | .rdUnh5 => encodeAt m .via true 0x5 0
  | .wrUnh6 d => encodeAt m .via false 0x6 d
  | .rdUnh6 => encodeAt m .via true 0x6 0
  | .wrUnh7 d => encodeAt m .via false 0x7 d
  | .rdUnh7 => encodeAt m .via true 0x7 0
  | .wrUnh8 d => encodeAt m .via false 0x8 d
  | .rdUnh8 => encodeAt m .via true 0x8 0
  | .wrUnh9 d => encodeAt m .via false 0x9 d
  | .rdUnh9 => encodeAt m .via true 0x9 0
  | .wrUnhA d => encodeAt m .via false 0xA d
  | .rdUnhA => encodeAt m .via true 0xA 0
  | .wrUnhB d => encodeAt m .via false 0xB d
  | .rdUnhB => encodeAt m .via true 0xB 0
  | .wrPcr d => encodeAt m .via false 0xC d
  | .rdPcr => encodeAt m .via true 0xC 0
  | .wrUnhD d => encodeAt m .via false 0xD d
  | .rdUnhD => encodeAt m .via true 0xD 0
  | .wrUnhE d => encodeAt m .via false 0xE d
  | .rdUnhE => encodeAt m .via true 0xE 0
  | .wrUnhF d => encodeAt m .via false 0xF d
  | .rdUnhF => encodeAt m .via true 0xF 0
  | .romRd off => encodeAt m .rom true off 0
  | .romWr a d => some (.bus (BusWord.make false a d))
  | .unmappedRd a => some (.bus (BusWord.make true a 0))
  | .unmappedWr a d => some (.bus (BusWord.make false a d))
  | .busAttach dev label base => some (.evt 0 (.device dev label base))
  | .viaAttachA p => some (.evt 1 (.peripheral p))
  | .viaAttachB p => some (.evt 2 (.peripheral p))
  | .viaReset => some (.evt 3 .none)
  | .viaShutdown => some (.evt 4 .none)
  | .ctrl1Mode n => some (.evt 5 (.offset n))
  | .ctrl2Mode n => some (.evt 6 (.offset n))
  | .ramSnapshot => some (.evt 7 .none)

/-! ## The notation of 95_test_vectors (R114, R115): what each line of text stands for -/

/-- The address a symbol expands to (R115); the direction picks the register. -/
def Symbol.address : Symbol → Addr
  | .orb => 0xC000
  | .irb => 0xC000
  | .ora => 0xC001
  | .ira => 0xC001
  | .ddrb => 0xC002
  | .ddra => 0xC003
  | .pcr => 0xC00C

/-- `WR $aaaa,#$dd` (R114). -/
def Request.wr (a : Addr) (d : Byte) : Request := .bus (BusWord.make false a d)
/-- `RD $aaaa` (R114). -/
def Request.rd (a : Addr) : Request := .bus (BusWord.make true a 0x00)
/-- `ATTACH dev,"label",$bbbb` (R114). -/
def Request.attach (dev : Device) (label : String) (b : Addr) : Request := .evt 0b000 (.device dev label b)
/-- `ATTACHA name,$mm` (R114). -/
def Request.attachA (p : Peripheral) : Request := .evt 0b001 (.peripheral p)
/-- `ATTACHB name,$mm` (R114). -/
def Request.attachB (p : Peripheral) : Request := .evt 0b010 (.peripheral p)
/-- `RESET` (R114). -/
def Request.reset : Request := .evt 0b011 .none
/-- `SHUTDOWN` (R114). -/
def Request.shutdown : Request := .evt 0b100 .none
/-- `CTRL1 n` (R114). -/
def Request.ctrl1 (n : Nat) : Request := .evt 0b101 (.offset n)
/-- `CTRL2 n` (R114). -/
def Request.ctrl2 (n : Nat) : Request := .evt 0b110 (.offset n)
/-- `SNAPSHOT` (R114). -/
def Request.snapshot : Request := .evt 0b111 .none

/-! ## The words of spec/opcode_table.json -/

/-- The operands of a host event where the table gives none: zeros. -/
def zeroArgs (code : EvtCode) : EvtArgs :=
  match code.toNat with
  | 0 => .device .ram "" 0
  | 1 => .peripheral ⟨0, 0, ""⟩
  | 2 => .peripheral ⟨0, 0, ""⟩
  | 5 => .offset 0
  | 6 => .offset 0
  | _ => .none

/-- The request a row's word stands for: a row of at most one byte is a host event's 3-bit code (R103) with
operands of zeros, a longer one a 25-bit BUS word (R102); a word with a bit above its format is no request. -/
def requestOfTableWord (nbits w : Nat) : Option Request :=
  if nbits ≤ 8 then
    if w < 8 then some (.evt (BitVec.ofNat 3 w) (zeroArgs (BitVec.ofNat 3 w))) else none
  else
    if w < 2 ^ 25 then some (.bus (BitVec.ofNat 25 w)) else none

/-- The operation a row's word decodes to in the default fixed map (R107, R147). -/
def decodeTableWord (nbits w : Nat) : Option Instr :=
  match requestOfTableWord nbits w with
  | some r =>
    match decode (fixedMap Params.default) r with
    | .ok i => some i
    | .error _ => none
  | none => none

end Sys2Proof
end

