-- ==== Sys2Proof/Machine/Memory.lean ====
section
/-! DEFINITION. A byte memory as plain data in one canonical form, and the operations on it: what an unlisted
cell reads as, read, write (RAM_RD, RAM_WR: 40_address_bus R137, R138). -/

namespace Sys2Proof

/-- What an unlisted cell reads as. DESIGN CHOICE (log entry 2): it is only the representation of RAM_INIT; any
initial contents are a list of cells. -/
def Memory.unlisted : Byte := 0x00

/-- The byte at an offset (R137). -/
def Memory.read : Memory → Nat → Byte
  | [], _ => Memory.unlisted
  | c :: m, a => if c.1 = a then c.2 else Memory.read m a

/-- The memory without a cell for this offset. -/
def Memory.clear (m : Memory) (a : Nat) : Memory := m.filter (fun c => c.1 != a)

/-- A new cell put before the first cell of a higher offset. -/
def Memory.put (a : Nat) (v : Byte) : Memory → Memory
  | [] => [(a, v)]
  | c :: m => if a < c.1 then (a, v) :: c :: m else c :: Memory.put a v m

/-- The memory with one byte stored (R138). -/
def Memory.write (m : Memory) (a : Nat) (v : Byte) : Memory :=
  if v = Memory.unlisted then Memory.clear m a else Memory.put a v (Memory.clear m a)

/-- The canonical form: offsets strictly rising, no cell equal to what an unlisted offset reads as. -/
abbrev Memory.wf (m : Memory) : Prop :=
  m.Pairwise (fun c d => c.1 < d.1) ∧ ∀ c ∈ m, c.2 ≠ Memory.unlisted

/-- Every listed offset is below `n`: the memory of a device of `n` bytes. -/
abbrev Memory.below (m : Memory) (n : Nat) : Prop := ∀ c ∈ m, c.1 < n

/-- The first `n` bytes (RAM_SNAPSHOT, 43 R248). -/
def Memory.bytes (m : Memory) (n : Nat) : List Byte := (List.range n).map (fun a => Memory.read m a)

end Sys2Proof
end

