-- ==== Sys2Proof/Machine/State.lean ====
section
/-! DEFINITION. The state of the block as plain data (10_state R20 to R44), the closed lists of reasons a step
can stop, construction (R43) and the state after reset. -/

namespace Sys2Proof.Machine

/-- The VIA's state (10_state R21 to R31). -/
structure Via where
  /-- Output register A (R21). -/
  ora : Byte
  /-- Output register B (R22). -/
  orb : Byte
  /-- Input register A: the composed input of the last read, before mixing (R23, 90 C8). -/
  ira : Byte
  /-- Input register B (R24). -/
  irb : Byte
  /-- Data-direction register A (R26). -/
  ddra : Byte
  /-- Data-direction register B (R27). -/
  ddrb : Byte
  /-- Peripheral control register (R28). -/
  pcr : Byte
  /-- The peripherals of port A in attachment order (R30). -/
  portA : List Peripheral
  /-- The peripherals of port B in attachment order (R31). -/
  portB : List Peripheral
  deriving DecidableEq, Repr

/-- The fault records of 60_exceptions R260: the closed list of faults with the information each records. -/
inductive FaultRecord where
  | configOverlap (base : Addr) (size : Nat) (otherBase : Addr) (otherSize : Nat)
  | configRange (base : Addr) (size : Nat)
  /-- Raised by the ROM loader before the block exists (R262): no operation of the block raises it. -/
  | configRomLoad
  | unmappedAccess (addr : Addr) (dir : Direction)
  | viaUnhandledRegister (rs : RegSel) (dir : Direction)
  | romWrite (addr : Addr) (data : Byte)
  deriving DecidableEq, Repr

/-- The events of the output trace (10_state R40). -/
inductive Event where
  /-- `port[i].Read()` returned `b`. -/
  | pRead (port : Port) (i : Nat) (b : Byte)
  /-- `port[i].Write(v)` was called. -/
  | pWrite (port : Port) (i : Nat) (v : Byte)
  /-- `port[i].Shutdown()` was called; `ok` is false when it reported a failure (R198, 93 U20). -/
  | pShutdown (port : Port) (i : Nat) (ok : Bool)
  /-- The log line of an attachment (not architectural). -/
  | attachLog (port : Port) (name : String) (mask : Byte)
  /-- The diagnostic line of a port write (not architectural). -/
  | diag (port : Port) (v : Byte)
  deriving DecidableEq, Repr

/-- The model's own record of what stands outside the block: the environment's answers still to come, in call
order (R226, R227; log entries 6 and 7), and the trace of what the block did to it (R40; log entry 8). -/
structure World where
  /-- The bytes the next `Read()` calls return; beyond the list the byte is a free value. -/
  reads : List Byte
  /-- How many `Read()` calls were made. -/
  readCount : Nat
  /-- Whether the next `Shutdown()` calls succeed; beyond the list it is a free value. -/
  reports : List Bool
  /-- How many `Shutdown()` calls were made. -/
  reportCount : Nat
  /-- The events so far, oldest first. -/
  trace : List Event
  deriving DecidableEq, Repr

/-- What the last operation gave back to whoever issued it (the model's own record, log entry 5). -/
inductive Answer where
  /-- Nothing: a write, a host event without a result, an operation that faulted. -/
  | none
  /-- The byte of a read (R135). -/
  | byte (b : Byte)
  /-- A 1-bit control mode (R172). -/
  | mode1 (v : BitVec 1)
  /-- A 3-bit control mode (R173). -/
  | mode3 (v : BitVec 3)
  /-- A RAM snapshot (R248). -/
  | snapshot (bytes : List Byte)
  deriving DecidableEq, Repr

/-- How far the host's sequence has come (the model's own record, log entry 4; R144, R198 corner case 6, R249). -/
inductive Phase where
  /-- No bus transaction yet: BUS_ATTACH is admitted. -/
  | configuration
  /-- A bus transaction was issued: `bus.att` is constant. -/
  | running
  /-- VIA_SHUTDOWN was performed. -/
  | shutDown
  deriving DecidableEq, Repr

structure State where
  /-- The parameters of the machine (00_scope R8): no step changes them. -/
  params : Params
  /-- The VIA's registers and peripheral lists. -/
  via : Via
  /-- `bus.att` (R34). -/
  att : AddressMap
  /-- The RAM's contents by local offset (R35). -/
  ram : Memory
  /-- The fault latch (R33). -/
  halt : Option FaultRecord
  /-- The model's own: see `Phase`. -/
  phase : Phase
  /-- The model's own: see `Answer`. -/
  answer : Answer
  /-- The operations still to be issued, the next one first (R37): the model's input. -/
  ops : List Request
  /-- The model's own: see `World`. -/
  world : World
  deriving DecidableEq, Repr

/-- Why the machine stops for good. -/
inductive Fault where
  /-- Raised by every operation but RAM_SNAPSHOT and VIA_SHUTDOWN issued while the fault latch holds this record:
  "no step" (R271, 93 U15). Safe: the spec gives the operation no step there. -/
  | halted (record : FaultRecord)
  deriving DecidableEq, Repr

/-- Why an operation is turned away. -/
inductive Refusal where
  /-- Raised by an arm of `exec` that has no meaning yet (there is none). Safe. -/
  | notModelled (mnemonic : String)
  /-- Raised by `step` on a request that names no operation. Safe: R103, R62, 92 D12 give it none. -/
  | undecodable (e : DecodeError)
  /-- Raised by every operation but VIA_SHUTDOWN after VIA_SHUTDOWN: "the model refuses one" (R198 corner case 6,
  92 D16, 93 U14). Safe. -/
  | afterShutdown
  /-- Raised by BUS_ATTACH after the first bus transaction: "is refused by the model" (R144, 93 U16). Safe. -/
  | attachAfterStart
  /-- Raised by VIA_ATTACH_A and VIA_ATTACH_B for a peripheral already on a port: "a model refuses a second
  attachment of the same peripheral" (R174 corner case 4, 93 U5). Safe. -/
  | peripheralAttachedTwice (id : Nat)
  /-- Raised by CTRL1_MODE and CTRL2_MODE for an offset other than 0 and 4: "refused by the model" (R172, R173,
  93 U13). Safe. -/
  | controlOffset (offset : Nat)
  /-- Raised by a device access at an offset the device does not have (R132, R62, R199, 92 D12). Cannot arise on an
  admitted map. Safe. -/
  | deviceOffset (dev : Device) (off : Addr)
  deriving DecidableEq, Repr

/-- The VIA as constructed (R43): zeroed registers, empty lists. -/
def Via.constructed : Via where
  ora := 0x00
  orb := 0x00
  ira := 0x00
  irb := 0x00
  ddra := 0x00
  ddrb := 0x00
  pcr := 0x00
  portA := []
  portB := []

/-- The environment before anything happened. -/
def World.initial : World where
  reads := []
  readCount := 0
  reports := []
  reportCount := 0
  trace := []

/-- Construction (R43) with given parameters and RAM_INIT. -/
def State.construct (p : Params) (ramInit : Memory) : State where
  params := p
  via := Via.constructed
  att := []
  ram := ramInit
  halt := none
  phase := .configuration
  answer := .none
  ops := []
  world := World.initial

/-- The machine after reset: as constructed (R43, R44, R300), with the default parameters (log entries 1, 2). -/
def State.reset : State := State.construct Params.default Config.ramInit

/-! ## One update per field -/

/-- The state with other VIA contents. -/
def State.withVia (s : State) (v : Via) : State := { s with via := v }
/-- The state with another attachment list. -/
def State.withAtt (s : State) (m : AddressMap) : State := { s with att := m }
/-- The state with other RAM contents. -/
def State.withRam (s : State) (m : Memory) : State := { s with ram := m }
/-- The state with another fault latch. -/
def State.withHalt (s : State) (h : Option FaultRecord) : State := { s with halt := h }
/-- The state in another phase. -/
def State.withPhase (s : State) (ph : Phase) : State := { s with phase := ph }
/-- The state with another answer. -/
def State.withAnswer (s : State) (r : Answer) : State := { s with answer := r }
/-- The state with other operations to come. -/
def State.withOps (s : State) (q : List Request) : State := { s with ops := q }
/-- The state with another environment record. -/
def State.withWorld (s : State) (w : World) : State := { s with world := w }

end Sys2Proof.Machine
end

