-- ==== Sys2Proof/Machine/Operands.lean ====
section
/-! DEFINITION. The bitwise functions port operations are built from (41_via_registers R170, R200, R201) and the
VIA's registers by port (10_state R21 to R31). -/

namespace Sys2Proof

/-- The part of a byte a peripheral is wired to: what it is given of a driven byte (R201), and what is taken of
the byte it returns (R200). -/
def Peripheral.wired (p : Peripheral) (b : Byte) : Byte := b &&& p.mask

end Sys2Proof

namespace Sys2Proof.Machine

/-- Mixed-direction composition (R170): where `d` is 1 the output register's bit, where it is 0 the input's. -/
def compose (i o d : Byte) : Byte := (o &&& d) ||| (i &&& ~~~d)

/-- The part of a written byte that the direction register drives (R201 `m`). -/
def driven (data ddr : Byte) : Byte := data &&& ddr

/-- ORA or ORB. -/
def Via.outReg (v : Via) : Port → Byte
  | .a => v.ora
  | .b => v.orb

/-- IRA or IRB. -/
def Via.inReg (v : Via) : Port → Byte
  | .a => v.ira
  | .b => v.irb

/-- DDRA or DDRB. -/
def Via.dirReg (v : Via) : Port → Byte
  | .a => v.ddra
  | .b => v.ddrb

/-- portA or portB. -/
def Via.peripherals (v : Via) : Port → List Peripheral
  | .a => v.portA
  | .b => v.portB

/-- `via[ORx] <- d`. -/
def Via.setOut (v : Via) (d : Byte) : Port → Via
  | .a => { v with ora := d }
  | .b => { v with orb := d }

/-- `via[IRx] <- d`. -/
def Via.setIn (v : Via) (d : Byte) : Port → Via
  | .a => { v with ira := d }
  | .b => { v with irb := d }

/-- `via[DDRx] <- d`. -/
def Via.setDir (v : Via) (d : Byte) : Port → Via
  | .a => { v with ddra := d }
  | .b => { v with ddrb := d }

/-- `via[PCR] <- d`. -/
def Via.setPcr (v : Via) (d : Byte) : Via := { v with pcr := d }

/-- `portX <- portX ++ [p]`. -/
def Via.plug (v : Via) (p : Peripheral) : Port → Via
  | .a => { v with portA := v.portA ++ [p] }
  | .b => { v with portB := v.portB ++ [p] }

/-- The seven registers to 0x00, the lists as they are (R171). -/
def Via.zeroed (v : Via) : Via :=
  { v with ora := 0x00, orb := 0x00, ira := 0x00, irb := 0x00, ddra := 0x00, ddrb := 0x00, pcr := 0x00 }

/-- The peripheral is on a port already (R174 corner case 4). -/
def Via.attached (v : Via) (id : Nat) : Bool := (v.portA ++ v.portB).any (fun p => p.id == id)

end Sys2Proof.Machine
end

