-- ==== Sys2Proof/Machine/Ops.lean ====
section
/-! DEFINITION. The shared operations: fault entry, the admission of operations, the calls of peripherals, the
devices' reads and writes, the checks of BUS_ATTACH, and taking the next request. -/

namespace Sys2Proof.Machine

/-- The outcome of an operation. -/
abbrev Result := Host.Outcome State Fault Refusal

/-! ## Fault entry and the ends of an operation -/

/-- The code of a fault record (R260): the number the record's constructor stands for. -/
def FaultRecord.code : FaultRecord → Nat
  | .configOverlap _ _ _ _ => 1
  | .configRange _ _ => 2
  | .configRomLoad => 3
  | .unmappedAccess _ _ => 4
  | .viaUnhandledRegister _ _ => 5
  | .romWrite _ _ => 6

/-- `raise F(info)` (60_exceptions R270): the first fault record is latched, the operation ends with no result,
nothing else changes. There is no return from a fault (R273): no operation clears the latch. -/
def State.raise (s : State) (f : FaultRecord) : State :=
  (s.withHalt (some (s.halt.getD f))).withAnswer .none

/-- The operation ends in a fault: a next state, with the latch set. -/
def faulted (f : FaultRecord) (s : State) : Result := .next (s.raise f)

/-- The operation ends with nothing to give back. -/
def done (s : State) : Result := .next (s.withAnswer .none)

/-- The operation ends with a result. -/
def answered (r : Answer) (s : State) : Result := .next (s.withAnswer r)

/-! ## Which operations are admitted (R271, R272, R198 corner case 6) -/

/-- After VIA_SHUTDOWN an operation is refused (R198 corner case 6, R249, 92 D16). -/
def beforeShutdown (s : State) (k : State → Result) : Result :=
  match s.phase with
  | .configuration => k s
  | .running => k s
  | .shutDown => .refused .afterShutdown

/-- A host event: no step while halted (R271). -/
def hostEvent (s : State) (k : State → Result) : Result :=
  match s.halt with
  | some f => .fault (.halted f)
  | none => beforeShutdown s k

/-- A bus transaction: no step while halted (R271); it ends the configuration phase (R144). -/
def transaction (s : State) (k : State → Result) : Result :=
  hostEvent s (fun s => k (s.withPhase .running))

/-! ## Calls of peripherals (42_parallel_peripheral R220 to R228) -/

/-- One event more in the trace (00_scope R16). -/
def World.emit (w : World) (e : Event) : World := { w with trace := w.trace ++ [e] }

/-- The byte the next `Read()` call returns (R226): the environment's next byte, else a free value. -/
def World.nextRead (w : World) : Byte := w.reads.headD (Config.peripheralRead w.readCount)

/-- One `Read()` call made. -/
def World.afterRead (w : World) : World := { w with reads := w.reads.tail, readCount := w.readCount + 1 }

/-- Whether the next `Shutdown()` call succeeds (R227): the environment's next report, else a free value. -/
def World.nextReport (w : World) : Bool := w.reports.headD (Config.shutdownSucceeds w.reportCount)

/-- One `Shutdown()` call made. -/
def World.afterReport (w : World) : World :=
  { w with reports := w.reports.tail, reportCount := w.reportCount + 1 }

/-- The loop of `input(L)` (R200) from index `i` with `acc` so far: every peripheral asked once, in order, its
bits outside the mask dropped, OR-ed. -/
def inputLoop (port : Port) : Nat → List Peripheral → Byte → World → Byte × World
  | _, [], acc, w => (acc, w)
  | i, p :: ps, acc, w =>
    inputLoop port (i + 1) ps (acc ||| Peripheral.wired p w.nextRead)
      (w.afterRead.emit (.pRead port i w.nextRead))

/-- The loop of `fanout(L, m)` (R201): every peripheral given `m & mask`, in order. -/
def fanoutLoop (port : Port) (m : Byte) : Nat → List Peripheral → World → World
  | _, [], w => w
  | i, p :: ps, w => fanoutLoop port m (i + 1) ps (w.emit (.pWrite port i (Peripheral.wired p m)))

/-- The loop of VIA_SHUTDOWN over one port (R198): every peripheral called, a failure recorded and passed over. -/
def shutdownLoop (port : Port) : Nat → List Peripheral → World → World
  | _, [], w => w
  | i, _ :: ps, w => shutdownLoop port (i + 1) ps (w.afterReport.emit (.pShutdown port i w.nextReport))

/-! ## The VIA's register operations -/

/-- The diagnostic line of a port write (R202). -/
def diagLine (p : Params) (port : Port) (d : Byte) (w : World) : World :=
  if p.diagBinary || p.diagAscii then w.emit (.diag port d) else w

/-- The world after a port write: diagnostic line, then fan-out (R160, R162). -/
def portWriteWorld (port : Port) (d : Byte) (s : State) : World :=
  fanoutLoop port (driven d (s.via.dirReg port)) 0 (s.via.peripherals port)
    (diagLine s.params port d s.world)

/-- WR_ORB, WR_ORA (R160, R162). -/
def portWrite (port : Port) (d : Byte) (s : State) : Result :=
  done ((s.withVia (s.via.setOut d port)).withWorld (portWriteWorld port d s))

/-- `input(portX)` with its calls (R200): from 0x00, whatever IRx held. -/
def portInput (port : Port) (s : State) : Byte × World :=
  inputLoop port 0 (s.via.peripherals port) 0x00 s.world

/-- RD_IRB, RD_IRA (R161, R163). -/
def portRead (port : Port) (s : State) : Result :=
  answered (.byte (compose (portInput port s).1 (s.via.outReg port) (s.via.dirReg port)))
    ((s.withVia (s.via.setIn (portInput port s).1 port)).withWorld (portInput port s).2)

/-- WR_DDRB, WR_DDRA (R164, R166): a store and nothing more. -/
def dirWrite (port : Port) (d : Byte) (s : State) : Result := done (s.withVia (s.via.setDir d port))

/-- RD_DDRB, RD_DDRA (R165, R167). -/
def dirRead (port : Port) (s : State) : Result := answered (.byte (s.via.dirReg port)) s

/-- WR_PCR (R168): a store and nothing more. -/
def pcrWrite (d : Byte) (s : State) : Result := done (s.withVia (s.via.setPcr d))

/-- RD_PCR (R169). -/
def pcrRead (s : State) : Result := answered (.byte s.via.pcr) s

/-- The common rule of the unhandled register selects (R203). -/
def unhandled (rs : RegSel) (dir : Direction) (s : State) : Result :=
  faulted (.viaUnhandledRegister rs dir) s

/-- A VIA read by register select (R100). -/
def viaRead (rs : RegSel) (s : State) : Result :=
  match rs.toNat with
  | 0x0 => portRead .b s
  | 0x1 => portRead .a s
  | 0x2 => dirRead .b s
  | 0x3 => dirRead .a s
  | 0xC => pcrRead s
  | _ => unhandled rs .read s

/-- A VIA write by register select (R100). -/
def viaWrite (rs : RegSel) (d : Byte) (s : State) : Result :=
  match rs.toNat with
  | 0x0 => portWrite .b d s
  | 0x1 => portWrite .a d s
  | 0x2 => dirWrite .b d s
  | 0x3 => dirWrite .a d s
  | 0xC => pcrWrite d s
  | _ => unhandled rs .write s

/-! ## The devices (40_address_bus R132) -/

/-- RAM_RD (R137). -/
def ramRead (off : Addr) (s : State) : Result :=
  if off.toNat < s.params.ramSize then answered (.byte (Memory.read s.ram off.toNat)) s
  else .refused (.deviceOffset .ram off)

/-- RAM_WR (R138). -/
def ramWrite (off : Addr) (d : Byte) (s : State) : Result :=
  if off.toNat < s.params.ramSize then done (s.withRam (Memory.write s.ram off.toNat d))
  else .refused (.deviceOffset .ram off)

/-- ROM_RD (R139). -/
def romRead (off : Addr) (s : State) : Result :=
  if off.toNat < s.params.romSize then answered (.byte (Memory.read s.params.romImage off.toNat)) s
  else .refused (.deviceOffset .rom off)

/-- ROM_WR (R140, R264): the fault, or nothing under the policy `ignore`; the image never changes. -/
def romWrite (a : Addr) (d : Byte) (s : State) : Result :=
  match s.params.romWritePolicy with
  | .fault => faulted (.romWrite a d) s
  | .ignore => done s

/-- UNMAPPED_RD, UNMAPPED_WR (R141, R142). -/
def unmapped (a : Addr) (dir : Direction) (s : State) : Result := faulted (.unmappedAccess a dir) s

/-- `DevRead(d, off)` (R132); an offset the VIA does not have is refused (R199). -/
def devRead (dev : Device) (off : Addr) (s : State) : Result :=
  match dev with
  | .ram => ramRead off s
  | .rom => romRead off s
  | .via =>
    if off.toNat < Config.viaSize then viaRead (off.extractLsb' 0 4) s
    else .refused (.deviceOffset .via off)

/-- `DevWrite(d, off, v)` (R132). `a` is the bus address, which only the record of RomWrite uses (R260). -/
def devWrite (dev : Device) (a off : Addr) (d : Byte) (s : State) : Result :=
  match dev with
  | .ram => ramWrite off d s
  | .rom => romWrite a d s
  | .via =>
    if off.toNat < Config.viaSize then viaWrite (off.extractLsb' 0 4) d s
    else .refused (.deviceOffset .via off)

/-! ## The Address Bus -/

/-- BUS_RD (R135): the owner is looked up first, then the device is consulted (R268). -/
def busRead (a : Addr) (s : State) : Result :=
  match s.att.owner a with
  | some t => devRead t.dev (t.offset a) s
  | none => unmapped a .read s

/-- BUS_WR (R136). -/
def busWrite (a : Addr) (d : Byte) (s : State) : Result :=
  match s.att.owner a with
  | some t => devWrite t.dev a (t.offset a) d s
  | none => unmapped a .write s

/-- The checks of BUS_ATTACH (R131), in the order of R268: the range, then the first overlapping attachment. -/
def attachFault (m : AddressMap) (b : Addr) (size : Nat) : Option FaultRecord :=
  if size = 0 ∨ 0x10000 < b.toNat + size then some (.configRange b size)
  else
    (m.find? (fun t => rangesOverlap b.toNat size t.base.toNat t.size)).map
      (fun t => .configOverlap b size t.base t.size)

/-- BUS_ATTACH after the checks of the phase (R131). -/
def attachDevice (dev : Device) (label : String) (b : Addr) (s : State) : Result :=
  match attachFault s.att b (dev.size s.params) with
  | some f => faulted f s
  | none => done (s.withAtt (s.att ++ [⟨b, dev.size s.params, dev, label⟩]))

/-- BUS_ATTACH is admitted only before the first bus transaction (R144). -/
def beforeFirstTransaction (s : State) (k : State → Result) : Result :=
  match s.phase with
  | .configuration => k s
  | .running => .refused .attachAfterStart
  | .shutDown => .refused .attachAfterStart

/-! ## Host events on the VIA -/

/-- VIA_ATTACH_A, VIA_ATTACH_B (R174, R175). -/
def attachPeripheral (port : Port) (p : Peripheral) (s : State) : Result :=
  if s.via.attached p.id then .refused (.peripheralAttachedTwice p.id)
  else done ((s.withVia (s.via.plug p port)).withWorld (s.world.emit (.attachLog port p.name p.mask)))

/-- VIA_RESET (R171): no peripheral is called. -/
def resetVia (s : State) : Result := done (s.withVia s.via.zeroed)

/-- The world after VIA_SHUTDOWN (R198): port A before port B. -/
def shutdownWorld (s : State) : World :=
  shutdownLoop .b 0 s.via.portB (shutdownLoop .a 0 s.via.portA s.world)

/-- VIA_SHUTDOWN (R198): registers, lists and halt as they are. -/
def shutdownVia (s : State) : Result :=
  done ((s.withWorld (shutdownWorld s)).withPhase .shutDown)

/-- CTRL1_MODE (R172). -/
def control1 (n : Nat) (s : State) : Result :=
  if controlOffsetOk n then answered (.mode1 (control1Mode s.via.pcr n)) s
  else .refused (.controlOffset n)

/-- CTRL2_MODE (R173). -/
def control2 (n : Nat) (s : State) : Result :=
  if controlOffsetOk n then answered (.mode3 (control2Mode s.via.pcr n)) s
  else .refused (.controlOffset n)

/-- RAM_SNAPSHOT (43 R248): read-only, straight from the RAM. -/
def snapshotRam (s : State) : Result :=
  answered (.snapshot (Memory.bytes s.ram s.params.ramSize)) s

/-! ## Taking the next request (10_state R37) -/

/-- What a step finds at the head of the list of operations. -/
inductive Fetched where
  /-- No operation is issued. -/
  | idle
  /-- The request names no operation. -/
  | bad (e : DecodeError)
  /-- The operation, and the state with the request consumed. -/
  | run (i : Instr) (s : State)
  deriving DecidableEq, Repr

/-- The next request, decoded for the attachment list as it stands (R113). -/
def fetch (s : State) : Fetched :=
  match s.ops with
  | [] => .idle
  | r :: rest =>
    match decode s.att r with
    | .ok i => .run i (s.withOps rest)
    | .error e => .bad e

/-- The attachment list a BUS word of the opcode table is read in: the machine's own, or the fixed map where
nothing is attached yet (R107, R147). -/
def mapForTable (s : State) : Request → AddressMap
  | .bus _ => if s.att.isEmpty then fixedMap s.params else s.att
  | .evt _ _ => s.att

/-- The state with a request placed where `fetch` takes the next one. -/
def issue (s : State) (r : Request) : State := (s.withAtt (mapForTable s r)).withOps (r :: s.ops)

end Sys2Proof.Machine
end

