-- ==== Sys2Proof/Machine/AddressBus.lean ====
section
/-! DEFINITION. The meanings of the Address Bus operations (40_address_bus): BUS_RD, BUS_WR, the RAM, ROM and unmapped leaf
transactions, BUS_ATTACH. -/

namespace Sys2Proof.Machine

/-- BUS_RD (R135). -/
def execBusRd (a : Addr) (s : State) : Result :=
  transaction s (busRead a)

/-- BUS_WR (R136). -/
def execBusWr (a : Addr) (d : Byte) (s : State) : Result :=
  transaction s (busWrite a d)

/-- RAM_RD (R137). -/
def execRamRd (off : Addr) (s : State) : Result :=
  transaction s (ramRead off)

/-- RAM_WR (R138). -/
def execRamWr (off : Addr) (d : Byte) (s : State) : Result :=
  transaction s (ramWrite off d)

/-- ROM_RD (R139). -/
def execRomRd (off : Addr) (s : State) : Result :=
  transaction s (romRead off)

/-- ROM_WR (R140). -/
def execRomWr (a : Addr) (d : Byte) (s : State) : Result :=
  transaction s (romWrite a d)

/-- UNMAPPED_RD (R141). -/
def execUnmappedRd (a : Addr) (s : State) : Result :=
  transaction s (unmapped a .read)

/-- UNMAPPED_WR (R142). -/
def execUnmappedWr (a : Addr) (_d : Byte) (s : State) : Result :=
  transaction s (unmapped a .write)

/-- BUS_ATTACH (R131). -/
def execBusAttach (dev : Device) (label : String) (base : Addr) (s : State) : Result :=
  hostEvent s (fun s => beforeFirstTransaction s (attachDevice dev label base))

end Sys2Proof.Machine
end

