-- ==== Sys2Proof/Machine/HostEvents.lean ====
section
/-! DEFINITION. The meanings of the host events on the VIA and the RAM (41_via_registers R171 to R175, R198, 43 R248). -/

namespace Sys2Proof.Machine

/-- VIA_ATTACH_A (R174). -/
def execViaAttachA (p : Peripheral) (s : State) : Result :=
  hostEvent s (attachPeripheral .a p)

/-- VIA_ATTACH_B (R175). -/
def execViaAttachB (p : Peripheral) (s : State) : Result :=
  hostEvent s (attachPeripheral .b p)

/-- VIA_RESET (R171). -/
def execViaReset (s : State) : Result :=
  hostEvent s resetVia

/-- VIA_SHUTDOWN (R198). Admitted while halted (R272) and, harmlessly, a second time (R198 corner case 4). -/
def execViaShutdown (s : State) : Result :=
  shutdownVia s

/-- CTRL1_MODE (R172). -/
def execCtrl1Mode (n : Nat) (s : State) : Result :=
  hostEvent s (control1 n)

/-- CTRL2_MODE (R173). -/
def execCtrl2Mode (n : Nat) (s : State) : Result :=
  hostEvent s (control2 n)

/-- RAM_SNAPSHOT (R248). Admitted while halted (R272). -/
def execRamSnapshot (s : State) : Result :=
  beforeShutdown s snapshotRam

end Sys2Proof.Machine
end

