-- ==== Sys2Proof/Machine/ViaRegisters.lean ====
section
/-! DEFINITION. The meanings of the VIA's register operations (41_via_registers R160 to R169, R176 to R197). -/

namespace Sys2Proof.Machine

/-- WR_ORB (R160). -/
def execWrOrb (d : Byte) (s : State) : Result :=
  transaction s (portWrite .b d)

/-- RD_IRB (R161). -/
def execRdIrb (s : State) : Result :=
  transaction s (portRead .b)

/-- WR_ORA (R162). -/
def execWrOra (d : Byte) (s : State) : Result :=
  transaction s (portWrite .a d)

/-- RD_IRA (R163). -/
def execRdIra (s : State) : Result :=
  transaction s (portRead .a)

/-- WR_DDRB (R164). -/
def execWrDdrb (d : Byte) (s : State) : Result :=
  transaction s (dirWrite .b d)

/-- RD_DDRB (R165). -/
def execRdDdrb (s : State) : Result :=
  transaction s (dirRead .b)

/-- WR_DDRA (R166). -/
def execWrDdra (d : Byte) (s : State) : Result :=
  transaction s (dirWrite .a d)

/-- RD_DDRA (R167). -/
def execRdDdra (s : State) : Result :=
  transaction s (dirRead .a)

/-- WR_UNH_4 (R176). -/
def execWrUnh4 (_d : Byte) (s : State) : Result :=
  transaction s (unhandled 0x4 .write)

/-- RD_UNH_4 (R177). -/
def execRdUnh4 (s : State) : Result :=
  transaction s (unhandled 0x4 .read)

/-- WR_UNH_5 (R178). -/
def execWrUnh5 (_d : Byte) (s : State) : Result :=
  transaction s (unhandled 0x5 .write)

/-- RD_UNH_5 (R179). -/
def execRdUnh5 (s : State) : Result :=
  transaction s (unhandled 0x5 .read)

/-- WR_UNH_6 (R180). -/
def execWrUnh6 (_d : Byte) (s : State) : Result :=
  transaction s (unhandled 0x6 .write)

/-- RD_UNH_6 (R181). -/
def execRdUnh6 (s : State) : Result :=
  transaction s (unhandled 0x6 .read)

/-- WR_UNH_7 (R182). -/
def execWrUnh7 (_d : Byte) (s : State) : Result :=
  transaction s (unhandled 0x7 .write)

/-- RD_UNH_7 (R183). -/
def execRdUnh7 (s : State) : Result :=
  transaction s (unhandled 0x7 .read)

/-- WR_UNH_8 (R184). -/
def execWrUnh8 (_d : Byte) (s : State) : Result :=
  transaction s (unhandled 0x8 .write)

/-- RD_UNH_8 (R185). -/
def execRdUnh8 (s : State) : Result :=
  transaction s (unhandled 0x8 .read)

/-- WR_UNH_9 (R186). -/
def execWrUnh9 (_d : Byte) (s : State) : Result :=
  transaction s (unhandled 0x9 .write)

/-- RD_UNH_9 (R187). -/
def execRdUnh9 (s : State) : Result :=
  transaction s (unhandled 0x9 .read)

/-- WR_UNH_A (R188). -/
def execWrUnhA (_d : Byte) (s : State) : Result :=
  transaction s (unhandled 0xA .write)

/-- RD_UNH_A (R189). -/
def execRdUnhA (s : State) : Result :=
  transaction s (unhandled 0xA .read)

/-- WR_UNH_B (R190). -/
def execWrUnhB (_d : Byte) (s : State) : Result :=
  transaction s (unhandled 0xB .write)

/-- RD_UNH_B (R191). -/
def execRdUnhB (s : State) : Result :=
  transaction s (unhandled 0xB .read)

/-- WR_PCR (R168). -/
def execWrPcr (d : Byte) (s : State) : Result :=
  transaction s (pcrWrite d)

/-- RD_PCR (R169). -/
def execRdPcr (s : State) : Result :=
  transaction s pcrRead

/-- WR_UNH_D (R192). -/
def execWrUnhD (_d : Byte) (s : State) : Result :=
  transaction s (unhandled 0xD .write)

/-- RD_UNH_D (R193). -/
def execRdUnhD (s : State) : Result :=
  transaction s (unhandled 0xD .read)

/-- WR_UNH_E (R194). -/
def execWrUnhE (_d : Byte) (s : State) : Result :=
  transaction s (unhandled 0xE .write)

/-- RD_UNH_E (R195). -/
def execRdUnhE (s : State) : Result :=
  transaction s (unhandled 0xE .read)

/-- WR_UNH_F (R196). -/
def execWrUnhF (_d : Byte) (s : State) : Result :=
  transaction s (unhandled 0xF .write)

/-- RD_UNH_F (R197). -/
def execRdUnhF (s : State) : Result :=
  transaction s (unhandled 0xF .read)

end Sys2Proof.Machine
end

