-- ==== Sys2Proof/Machine/Dispatch.lean ====
section
/-! DEFINITION. The dispatch of an operation to its meaning: one arm per row of spec/opcode_table.json. -/

namespace Sys2Proof.Machine

def exec (i : Instr) (s : State) : Host.Outcome State Fault Refusal :=
  match i with
  | .busRd a => Sys2Proof.Machine.execBusRd a s
  | .busWr a d => Sys2Proof.Machine.execBusWr a d s
  | .ramRd off => Sys2Proof.Machine.execRamRd off s
  | .ramWr off d => Sys2Proof.Machine.execRamWr off d s
  | .wrOrb d => Sys2Proof.Machine.execWrOrb d s
  | .rdIrb => Sys2Proof.Machine.execRdIrb s
  | .wrOra d => Sys2Proof.Machine.execWrOra d s
  | .rdIra => Sys2Proof.Machine.execRdIra s
  | .wrDdrb d => Sys2Proof.Machine.execWrDdrb d s
  | .rdDdrb => Sys2Proof.Machine.execRdDdrb s
  | .wrDdra d => Sys2Proof.Machine.execWrDdra d s
  | .rdDdra => Sys2Proof.Machine.execRdDdra s
  | .wrUnh4 d => Sys2Proof.Machine.execWrUnh4 d s
  | .rdUnh4 => Sys2Proof.Machine.execRdUnh4 s
  | .wrUnh5 d => Sys2Proof.Machine.execWrUnh5 d s
  | .rdUnh5 => Sys2Proof.Machine.execRdUnh5 s
  | .wrUnh6 d => Sys2Proof.Machine.execWrUnh6 d s
  | .rdUnh6 => Sys2Proof.Machine.execRdUnh6 s
  | .wrUnh7 d => Sys2Proof.Machine.execWrUnh7 d s
  | .rdUnh7 => Sys2Proof.Machine.execRdUnh7 s
  | .wrUnh8 d => Sys2Proof.Machine.execWrUnh8 d s
  | .rdUnh8 => Sys2Proof.Machine.execRdUnh8 s
  | .wrUnh9 d => Sys2Proof.Machine.execWrUnh9 d s
  | .rdUnh9 => Sys2Proof.Machine.execRdUnh9 s
  | .wrUnhA d => Sys2Proof.Machine.execWrUnhA d s
  | .rdUnhA => Sys2Proof.Machine.execRdUnhA s
  | .wrUnhB d => Sys2Proof.Machine.execWrUnhB d s
  | .rdUnhB => Sys2Proof.Machine.execRdUnhB s
  | .wrPcr d => Sys2Proof.Machine.execWrPcr d s
  | .rdPcr => Sys2Proof.Machine.execRdPcr s
  | .wrUnhD d => Sys2Proof.Machine.execWrUnhD d s
  | .rdUnhD => Sys2Proof.Machine.execRdUnhD s
  | .wrUnhE d => Sys2Proof.Machine.execWrUnhE d s
  | .rdUnhE => Sys2Proof.Machine.execRdUnhE s
  | .wrUnhF d => Sys2Proof.Machine.execWrUnhF d s
  | .rdUnhF => Sys2Proof.Machine.execRdUnhF s
  | .romRd off => Sys2Proof.Machine.execRomRd off s
  | .romWr a d => Sys2Proof.Machine.execRomWr a d s
  | .unmappedRd a => Sys2Proof.Machine.execUnmappedRd a s
  | .unmappedWr a d => Sys2Proof.Machine.execUnmappedWr a d s
  | .busAttach dev label base => Sys2Proof.Machine.execBusAttach dev label base s
  | .viaAttachA p => Sys2Proof.Machine.execViaAttachA p s
  | .viaAttachB p => Sys2Proof.Machine.execViaAttachB p s
  | .viaReset => Sys2Proof.Machine.execViaReset s
  | .viaShutdown => Sys2Proof.Machine.execViaShutdown s
  | .ctrl1Mode n => Sys2Proof.Machine.execCtrl1Mode n s
  | .ctrl2Mode n => Sys2Proof.Machine.execCtrl2Mode n s
  | .ramSnapshot => Sys2Proof.Machine.execRamSnapshot s

end Sys2Proof.Machine
end

