-- ==== Sys2Proof/Machine/Step.lean ====
section
/-! DEFINITION. One step: the next request is taken, decoded and executed (10_state R37). -/

namespace Sys2Proof.Machine

/-- One step consumes one operation (R37). With none issued the block does nothing: "between operations their
state is constant" (20_memory R81; DEDUCED, log entry 3). -/
def step (s : State) : Host.Outcome State Fault Refusal :=
  match fetch s with
  | .idle => .next s
  | .bad e => .refused (.undecodable e)
  | .run i t => exec i t

/-- The state with the opcode table's word issued as the next operation; a BUS word on a bus nothing is attached
to is issued in the fixed map, which the host builds before any transaction (R107, R147; log entry 9). -/
def State.withFetchWord (s : State) (nbits w : Nat) : State :=
  match requestOfTableWord nbits w with
  | some r => issue s r
  | none => s

end Sys2Proof.Machine
end

