-- ==== Sys2Proof/Machine/Supervisor.lean ====
section
/-! DEFINITION. The host's sequences as lists of requests (43_supervisor_host R241, R245 to R250, 40_address_bus
R147): what a run begins and ends with. The file, the notice and the process are outside the modelled state (R5);
the exit status is a plain function, no state. -/

namespace Sys2Proof.Machine

/-- The start-up sequence (R241 steps 3 to 5, R147): a display on port B or not, VIA_RESET, then RAM, VIA and,
with HAS_ROM, ROM at the fixed bases. -/
def startup (p : Params) (display : Option Peripheral) : List Request :=
  (display.map Request.attachB).toList
    ++ [.reset, .attach .ram "RAM" Config.ramBase, .attach .via "VIA" Config.viaBase]
    ++ (if p.hasRom then [.attach .rom "ROM" Config.romBase] else [])

/-- What ends a run (R245): the processor publishes a status, or a signal arrives. -/
inductive Termination where
  | processor (status : Nat)
  | interrupt
  deriving DecidableEq, Repr

/-- The exit status (R246): forced to 1 on an external interrupt. -/
def exitStatus : Termination → Nat
  | .processor n => n
  | .interrupt => 1

/-- The host's last operations (R247, R249): a snapshot only where the exit is abnormal, one VIA_SHUTDOWN on
every path. -/
def teardown (t : Termination) : List Request :=
  (if exitStatus t = 0 then [] else [.snapshot]) ++ [.shutdown]

/-- The state with these requests to issue next. -/
def State.queue (s : State) (q : List Request) : State := s.withOps (q ++ s.ops)

end Sys2Proof.Machine
end

