-- ==== Sys2Proof/Safety.lean ====
section
/-! DEFINITION. The terms claims are stated in: which states admit an operation, the invariant of the machine, the
environment's answers by position, the calls of a port as lists, and the leaf operation a generic one stands for. -/

namespace Sys2Proof

/-- A bus transaction, as against a host event (R17). -/
def Instr.isTransaction : Instr → Bool
  | .busAttach _ _ _ => false
  | .viaAttachA _ => false
  | .viaAttachB _ => false
  | .viaReset => false
  | .viaShutdown => false
  | .ctrl1Mode _ => false
  | .ctrl2Mode _ => false
  | .ramSnapshot => false
  | _ => true

/-- The two operations admitted while halted (R272). -/
def Instr.isTeardown : Instr → Bool
  | .viaShutdown => true
  | .ramSnapshot => true
  | _ => false

end Sys2Proof

namespace Sys2Proof.Machine

/-- Every operation but BUS_ATTACH is admitted here: not halted (R271), not shut down (R198 corner case 6). -/
abbrev State.Ready (s : State) : Prop := s.halt = none ∧ s.phase ≠ .shutDown

/-- BUS_ATTACH is admitted here (R144, R271). -/
abbrev State.Configuring (s : State) : Prop := s.halt = none ∧ s.phase = .configuration

/-- A good final state of a run (R271): "halt = none at the end". -/
abbrev State.Good (s : State) : Prop := s.halt = none

/-- No peripheral is attached twice (R229, R174 corner case 4). -/
abbrev Via.OnePortEach (v : Via) : Prop := ((v.portA ++ v.portB).map (fun p => p.id)).Nodup

/-- The invariant of the machine: an admitted map (R34), RAM and ROM image in canonical form and within their
sizes (R35, R36), no peripheral attached twice (R229). -/
abbrev State.Inv (s : State) : Prop :=
  s.att.Admitted s.params
    ∧ (Memory.wf s.ram ∧ Memory.below s.ram s.params.ramSize)
    ∧ (Memory.wf s.params.romImage ∧ Memory.below s.params.romImage s.params.romSize)
    ∧ s.via.OnePortEach

/-! ## The environment's answers by position -/

/-- What the `k`-th `Read()` call from here on returns (R226). -/
def World.readAt (w : World) (k : Nat) : Byte := w.reads.getD k (Config.peripheralRead (w.readCount + k))

/-- What the next `n` `Read()` calls return. -/
def World.readsNext (w : World) (n : Nat) : List Byte := (List.range n).map w.readAt

/-- What the `k`-th `Shutdown()` call from here on reports (R227). -/
def World.reportAt (w : World) (k : Nat) : Bool :=
  w.reports.getD k (Config.shutdownSucceeds (w.reportCount + k))

/-- What the next `n` `Shutdown()` calls report. -/
def World.reportsNext (w : World) (n : Nat) : List Bool := (List.range n).map w.reportAt

/-- The bytes a read of a port is given: one per peripheral, in attachment order (R200). -/
def State.portBytes (s : State) (port : Port) : List Byte :=
  s.world.readsNext (s.via.peripherals port).length

/-- The OR over the peripherals of the byte each returned and its mask (R200). -/
def orOfMasked (ps : List Peripheral) (bs : List Byte) : Byte :=
  (List.zipWith (fun p b => b &&& p.mask) ps bs).foldl (fun x y => x ||| y) 0x00

/-! ## The calls of one operation, in order (R40) -/

/-- The `Read()` calls of a port read. -/
def readCalls (port : Port) (bs : List Byte) : List Event := bs.mapIdx (fun i b => .pRead port i b)

/-- The `Write(m & mask)` calls of a fan-out. -/
def writeCalls (port : Port) (m : Byte) (ps : List Peripheral) : List Event :=
  ps.mapIdx (fun i p => .pWrite port i (m &&& p.mask))

/-- The `Shutdown()` calls over one port. -/
def shutdownCalls (port : Port) (oks : List Bool) : List Event := oks.mapIdx (fun i ok => .pShutdown port i ok)

/-- The diagnostic line of a port write, if an option is on (R202). -/
def diagLines (p : Params) (port : Port) (d : Byte) : List Event :=
  if p.diagBinary = true ∨ p.diagAscii = true then [.diag port d] else []

/-- The environment record after `n` `Read()` calls and these events. -/
def World.afterReads (w : World) (n : Nat) (es : List Event) : World :=
  { w with reads := w.reads.drop n, readCount := w.readCount + n, trace := w.trace ++ es }

/-- The environment record after `n` `Shutdown()` calls and these events. -/
def World.afterReports (w : World) (n : Nat) (es : List Event) : World :=
  { w with reports := w.reports.drop n, reportCount := w.reportCount + n, trace := w.trace ++ es }

/-- The environment record after these events. -/
def World.afterEvents (w : World) (es : List Event) : World := { w with trace := w.trace ++ es }

/-! ## Encodings -/

/-- A row of the VIA's register map (R100): the VIA word `w5` is the operation `i`, and in the fixed map, whatever
the sizes, so is the BUS word `w25` with any data byte. -/
def ViaRow (w5 : ViaWord) (w25 : BusWord) (i : Byte → Instr) : Prop :=
  ∀ d : Byte, decodeVia w5 d = i d
    ∧ ∀ p : Params, p.FixedMapSizes → decode (fixedMap p) (.bus (w25 ||| d.setWidth 25)) = .ok (i d)

/-- The leaf operation a generic transaction dispatches to (R107, R135, R136); any other operation is itself. -/
def leafOf (m : AddressMap) (i : Instr) : Instr :=
  match i with
  | .busRd a =>
    match decodeBus m (BusWord.make true a 0) with
    | .ok j => j
    | .error _ => i
  | .busWr a d =>
    match decodeBus m (BusWord.make false a d) with
    | .ok j => j
    | .error _ => i
  | _ => i

/-! ## Whole-machine terms -/

/-- The next state of an outcome changed by `f`; a fault or a refusal as it is. -/
def mapNext (f : State → State) : Result → Result
  | .next s => .next (f s)
  | .fault r => .fault r
  | .refused r => .refused r

/-- The state with the two input registers blotted out (R23, R42). -/
def State.withoutInputs (s : State) : State := s.withVia { s.via with ira := 0x00, irb := 0x00 }

/-- Which operation may set the fault latch to this record, and when (R260). -/
def FaultRecord.raisedBy (f : FaultRecord) (i : Instr) (s : State) : Prop :=
  match f with
  | .configOverlap b n b' n' =>
    ∃ dev label, i = .busAttach dev label b ∧ n = dev.size s.params
      ∧ ∃ u ∈ s.att, u.base = b' ∧ u.size = n' ∧ b.toNat < b'.toNat + n' ∧ b'.toNat < b.toNat + n
  | .configRange b n =>
    ∃ dev label, i = .busAttach dev label b ∧ n = dev.size s.params ∧ (n = 0 ∨ 0x10000 < b.toNat + n)
  | .configRomLoad => False
  | .unmappedAccess a .read => leafOf s.att i = .unmappedRd a
  | .unmappedAccess a .write => ∃ d, leafOf s.att i = .unmappedWr a d
  | .viaUnhandledRegister rs .read =>
    rs ∉ [0x0#4, 0x1#4, 0x2#4, 0x3#4, 0xC#4] ∧ leafOf s.att i = decodeViaRead rs
  | .viaUnhandledRegister rs .write =>
    rs ∉ [0x0#4, 0x1#4, 0x2#4, 0x3#4, 0xC#4] ∧ ∃ d, leafOf s.att i = decodeViaWrite rs d
  | .romWrite a d => s.params.romWritePolicy = .fault ∧ leafOf s.att i = .romWr a d

/-- Which leaf operation may cause an event (R40, 92 D15). -/
def Event.causedBy (e : Event) (p : Params) (leaf : Instr) : Prop :=
  match e with
  | .pRead .a _ _ => leaf = .rdIra
  | .pRead .b _ _ => leaf = .rdIrb
  | .pWrite .a _ _ => ∃ d, leaf = .wrOra d
  | .pWrite .b _ _ => ∃ d, leaf = .wrOrb d
  | .pShutdown _ _ _ => leaf = .viaShutdown
  | .attachLog .a name mask => ∃ q : Peripheral, leaf = .viaAttachA q ∧ q.name = name ∧ q.mask = mask
  | .attachLog .b name mask => ∃ q : Peripheral, leaf = .viaAttachB q ∧ q.name = name ∧ q.mask = mask
  | .diag .a d => leaf = .wrOra d ∧ (p.diagBinary = true ∨ p.diagAscii = true)
  | .diag .b d => leaf = .wrOrb d ∧ (p.diagBinary = true ∨ p.diagAscii = true)

end Sys2Proof.Machine
end

