-- ==== Sys2Proof/Certificates/Slice0/Obligations.lean ====
section
/-! DEFINITION. The statements for the provers. Every next state is written out as an update of the state before:
what is not named is unchanged, every byte of RAM with it. The fields `phase`, `answer`, `ops` and `world` are the
model's own records (log entries 3 to 8); `answer` is the rules' "Result". -/

open Sys2Proof Sys2Proof.Machine

/-! ## Construction, decoding, the step -/

/-- R43. The state of a newly constructed block, whatever its parameters and RAM_INIT. -/
def Obligations.ConstructionZeroesTheRegisters : Prop :=
  ∀ (p : Params) (ram : Memory),
    (State.construct p ram).via = ⟨0x00, 0x00, 0x00, 0x00, 0x00, 0x00, 0x00, [], []⟩
      ∧ (State.construct p ram).att = [] ∧ (State.construct p ram).halt = none

/-- The state after reset, and any newly constructed block whose RAM_INIT and ROM_IMAGE are canonical (the form is the
model's, log entry 2) and within their sizes, meets the invariant (R34, R43). The parameters of State.reset are the model's choice (log entries 1, 2). -/
def Obligations.ResetMeetsTheInvariant : Prop :=
  State.reset.Inv
    ∧ ∀ (p : Params) (ram : Memory), Memory.wf ram → Memory.below ram p.ramSize → Memory.wf p.romImage →
        Memory.below p.romImage p.romSize → (State.construct p ram).Inv

/-- The BUS words of 95_test_vectors T7 in its start state (the fixed map of the default parameters, which are the
model's choice, log entry 1; the words are R102's layout, 92 D3). -/
def Obligations.ExampleWordsDecode : Prop :=
  decodeTableWord 32 0x0C003FF = some (.wrDdra 0xFF) ∧ decodeTableWord 32 0x1C00100 = some .rdIra
    ∧ decodeTableWord 32 0x0C000A7 = some (.wrOrb 0xA7) ∧ decodeTableWord 32 0x1C00C00 = some .rdPcr
    ∧ decodeTableWord 32 0x00010A6 = some (.ramWr 0x0010 0xA6)
    ∧ decodeTableWord 32 0x1001000 = some (.ramRd 0x0010) ∧ decodeTableWord 32 0x1E00000 = some (.romRd 0x0000)
    ∧ decodeTableWord 32 0x0FFFF01 = some (.romWr 0xFFFF 0x01)
    ∧ decodeTableWord 32 0x1800000 = some (.unmappedRd 0x8000)
    ∧ decodeTableWord 32 0x0C00D7F = some (.wrUnhD 0x7F)

/-- The codes of the host events (R103; the codes are the spec's own, 92 D4). -/
def Obligations.EventCodesDecode : Prop :=
  ∀ (m : AddressMap) (dev : Device) (label : String) (b : Addr) (p : Peripheral) (n : Nat),
    decode m (.evt 0b000 (.device dev label b)) = .ok (.busAttach dev label b)
      ∧ decode m (.evt 0b001 (.peripheral p)) = .ok (.viaAttachA p)
      ∧ decode m (.evt 0b010 (.peripheral p)) = .ok (.viaAttachB p)
      ∧ decode m (.evt 0b011 .none) = .ok .viaReset
      ∧ decode m (.evt 0b100 .none) = .ok .viaShutdown
      ∧ decode m (.evt 0b101 (.offset n)) = .ok (.ctrl1Mode n)
      ∧ decode m (.evt 0b110 (.offset n)) = .ok (.ctrl2Mode n)
      ∧ decode m (.evt 0b111 .none) = .ok .ramSnapshot

/-- A step runs the decoded operation on the state with the request consumed (R37, 92 D20). With nothing issued the
state is constant (R81; the idle step is the model's reading, log entry 3); a request that names no operation is
refused. -/
def Obligations.StepRunsTheDecodedOperation : Prop :=
  ∀ (s : State),
    (∀ r rest i, s.ops = r :: rest → decode s.att r = .ok i → step s = exec i { s with ops := rest })
      ∧ (s.ops = [] → step s = .next s)
      ∧ (∀ r rest e, s.ops = r :: rest → decode s.att r = .error e → step s = .refused (.undecodable e))

/-- The host's interface: a table word placed by `withFetchWord` is the operation the next step runs, in the
machine's own map, or in the fixed map where a BUS word finds nothing attached (the model's choice, log entry 9). -/
def Obligations.PlacedTableWordRunsNext : Prop :=
  ∀ (s : State) (nbits w : Nat) (r : Request) (i : Instr),
    requestOfTableWord nbits w = some r → decode (mapForTable s r) r = .ok i →
      step (s.withFetchWord nbits w) = exec i { s with att := mapForTable s r }

/-- Decode and encode agree for every well-formed leaf operation and host event: on every admitted map where the
operation has an encoding; and in the fixed map, with a ROM, every one has (R100 to R105). -/
def Obligations.DecodeInvertsEncode : Prop :=
  (∀ (p : Params) (m : AddressMap) (i : Instr) (r : Request), m.Admitted p → i.isGeneric = false →
      i.wellFormed p m = true → encode m i = some r → decode m r = .ok i)
    ∧ ∀ (p : Params) (i : Instr), p.FixedMapSizes → p.hasRom = true → i.isGeneric = false →
        i.wellFormed p (fixedMap p) = true →
          ∃ r, encode (fixedMap p) i = some r ∧ decode (fixedMap p) r = .ok i

/-- On an admitted map every BUS word decodes to a leaf row, well formed; none is a hint, reserved or ignored
(R107, R112). -/
def Obligations.EveryBusWordIsALeafRow : Prop :=
  ∀ (p : Params) (m : AddressMap) (w : BusWord), m.Admitted p →
    ∃ i, decode m (.bus w) = .ok i ∧ i.wellFormed p m = true ∧ i.isGeneric = false ∧ i.isTransaction = true

/-- The decision list of the fixed map (R107 lines 2 to 5, R70): full decoding, no mirrors (R66). -/
def Obligations.FixedMapDecisionList : Prop :=
  ∀ (p : Params) (rw : Bool) (a : Addr) (d : Byte), p.FixedMapSizes →
    decode (fixedMap p) (.bus (BusWord.make rw a d)) = .ok (
      if a.toNat < p.ramSize then (if rw then .ramRd a else .ramWr a d)
      else if 0xC000 ≤ a.toNat ∧ a.toNat ≤ 0xC00F then
        (if rw then decodeViaRead (BitVec.ofNat 4 (a.toNat - 0xC000))
          else decodeViaWrite (BitVec.ofNat 4 (a.toNat - 0xC000)) d)
      else if p.hasRom = true ∧ 0xE000 ≤ a.toNat ∧ a.toNat < 0xE000 + p.romSize then
        (if rw then .romRd (BitVec.ofNat 16 (a.toNat - 0xE000)) else .romWr a d)
      else (if rw then .unmappedRd a else .unmappedWr a d))

/-- R134 (derived by the spec from R131, R133). On an admitted map at most one attachment owns an address, and
`owner` is it. -/
def Obligations.OneOwnerPerAddress : Prop :=
  ∀ (p : Params) (m : AddressMap) (a : Addr), m.Admitted p →
    (∀ (j k : Nat) (hj : j < m.length) (hk : k < m.length), m[j].owns a = true → m[k].owns a = true → j = k)
      ∧ ∀ t : Attachment, m.owner a = some t ↔ t ∈ m ∧ t.base.toNat ≤ a.toNat ∧ a.toNat < t.base.toNat + t.size

/-! ## The VIA's registers -/

/-- R170: the formula, the same bit by bit, that the two halves never overlap (the OR is also a sum and an exclusive
OR), and the two properties the source asks to be tested. -/
def Obligations.ComposeMixesByDirection : Prop :=
  ∀ (i o d : Byte),
    compose i o d = (o &&& d) ||| (i &&& ~~~d)
      ∧ (∀ k, k < 8 → (compose i o d).getLsbD k = if d.getLsbD k then o.getLsbD k else i.getLsbD k)
      ∧ compose i o d = (o &&& d) + (i &&& ~~~d) ∧ compose i o d = (o &&& d) ^^^ (i &&& ~~~d)
      ∧ compose i o 0x00 = i ∧ compose i o 0xFF = o

/-- R164, R166 with 92 D15: a direction register is stored and nothing more happens; no peripheral is called. -/
def Obligations.DirectionRegistersStore : Prop :=
  ViaRow 0b00010 0x0C00200 Instr.wrDdrb ∧ ViaRow 0b00011 0x0C00300 Instr.wrDdra
    ∧ ∀ (s : State) (d : Byte), s.Ready →
      exec (.wrDdrb d) s = .next { s with via := { s.via with ddrb := d }, phase := .running, answer := .none }
        ∧ exec (.wrDdra d) s = .next { s with via := { s.via with ddra := d }, phase := .running, answer := .none }

/-- R165, R167: the stored value is returned, nothing changes, no peripheral is asked. -/
def Obligations.DirectionRegistersReadBack : Prop :=
  ViaRow 0b10010 0x1C00200 (fun _ => Instr.rdDdrb) ∧ ViaRow 0b10011 0x1C00300 (fun _ => Instr.rdDdra)
    ∧ ∀ (s : State), s.Ready →
      exec .rdDdrb s = .next { s with phase := .running, answer := .byte s.via.ddrb }
        ∧ exec .rdDdra s = .next { s with phase := .running, answer := .byte s.via.ddra }

/-- R168, R169: the PCR is stored whole and returned whole, and neither does anything else. -/
def Obligations.ControlRegisterStoresAndReadsBack : Prop :=
  ViaRow 0b01100 0x0C00C00 Instr.wrPcr ∧ ViaRow 0b11100 0x1C00C00 (fun _ => Instr.rdPcr)
    ∧ ∀ (s : State) (d : Byte), s.Ready →
      exec (.wrPcr d) s = .next { s with via := { s.via with pcr := d }, phase := .running, answer := .none }
        ∧ exec .rdPcr s = .next { s with phase := .running, answer := .byte s.via.pcr }

/-- R162: ORA takes the byte whole; after the diagnostic line, if on, every port-A peripheral is given
`d & DDRA & mask`, once, in order; nothing else changes. -/
def Obligations.PortAWriteStoresAndFansOut : Prop :=
  ViaRow 0b00001 0x0C00100 Instr.wrOra
    ∧ ∀ (s : State) (d : Byte), s.Ready →
      exec (.wrOra d) s = .next
        { s with
          via := { s.via with ora := d }
          phase := .running
          answer := .none
          world := s.world.afterEvents
            (diagLines s.params .a d ++ writeCalls .a (d &&& s.via.ddra) s.via.portA) }

/-- R160: the same for ORB and port B. -/
def Obligations.PortBWriteStoresAndFansOut : Prop :=
  ViaRow 0b00000 0x0C00000 Instr.wrOrb
    ∧ ∀ (s : State) (d : Byte), s.Ready →
      exec (.wrOrb d) s = .next
        { s with
          via := { s.via with orb := d }
          phase := .running
          answer := .none
          world := s.world.afterEvents
            (diagLines s.params .b d ++ writeCalls .b (d &&& s.via.ddrb) s.via.portB) }

/-- R163: IRA takes the OR of the masked bytes of every port-A peripheral, each asked once, in order; the answer is
its mix with ORA by DDRA; nothing else changes. -/
def Obligations.PortAReadComposes : Prop :=
  ViaRow 0b10001 0x1C00100 (fun _ => Instr.rdIra)
    ∧ ∀ (s : State), s.Ready →
      exec .rdIra s = .next
        { s with
          via := { s.via with ira := orOfMasked s.via.portA (s.portBytes .a) }
          phase := .running
          answer := .byte ((s.via.ora &&& s.via.ddra) ||| (orOfMasked s.via.portA (s.portBytes .a) &&& ~~~s.via.ddra))
          world := s.world.afterReads s.via.portA.length (readCalls .a (s.portBytes .a)) }

/-- R161: the same for port B. -/
def Obligations.PortBReadComposes : Prop :=
  ViaRow 0b10000 0x1C00000 (fun _ => Instr.rdIrb)
    ∧ ∀ (s : State), s.Ready →
      exec .rdIrb s = .next
        { s with
          via := { s.via with irb := orOfMasked s.via.portB (s.portBytes .b) }
          phase := .running
          answer := .byte ((s.via.orb &&& s.via.ddrb) ||| (orOfMasked s.via.portB (s.portBytes .b) &&& ~~~s.via.ddrb))
          world := s.world.afterReads s.via.portB.length (readCalls .b (s.portBytes .b)) }

/-- Input composition pin by pin (R200; starting from 0x00 is 92 D13): after a port read, bit `k` of IRx is 1
exactly when some peripheral wired to pin `k` returned 1 there; an unconnected pin reads 0. -/
def Obligations.InputPinIsOrOfWiredPeripherals : Prop :=
  ∀ (s t : State) (k : Nat),
    (exec .rdIra s = .next t →
      (t.via.ira.getLsbD k = true ↔
        ∃ (j : Nat) (hj : j < s.via.portA.length),
          s.via.portA[j].mask.getLsbD k = true ∧ (s.world.readAt j).getLsbD k = true))
    ∧ (exec .rdIrb s = .next t →
      (t.via.irb.getLsbD k = true ↔
        ∃ (j : Nat) (hj : j < s.via.portB.length),
          s.via.portB[j].mask.getLsbD k = true ∧ (s.world.readAt j).getLsbD k = true))

/-- The order of a port's peripherals does not change the byte a read of it gives, "since composition is associative
bitwise OR" (R30, R31); for either port. -/
def Obligations.PeripheralOrderDoesNotChangeTheByte : Prop :=
  ∀ (s t s' t' : State),
    ((s.via.portA.zip (s.portBytes .a)).Perm (t.via.portA.zip (t.portBytes .a)) →
      s.via.ora = t.via.ora → s.via.ddra = t.via.ddra →
        exec .rdIra s = .next s' → exec .rdIra t = .next t' →
          s'.answer = t'.answer ∧ s'.via.ira = t'.via.ira)
    ∧ ((s.via.portB.zip (s.portBytes .b)).Perm (t.via.portB.zip (t.portBytes .b)) →
      s.via.orb = t.via.orb → s.via.ddrb = t.via.ddrb →
        exec .rdIrb s = .next s' → exec .rdIrb t = .next t' →
          s'.answer = t'.answer ∧ s'.via.irb = t'.via.irb)

/-- What a peripheral of either port returns outside its mask reaches no VIA register and no answer (R200, R225, 93
U4); only the trace of events records the byte as it was returned. Two environments whose bytes agree inside the masks
of a port's peripherals give the same VIA and the same answer for a read of that port. -/
def Obligations.BitsOutsideTheMaskAreDropped : Prop :=
  ∀ (s : State) (bs : List Byte), s.Ready →
    (s.via.portA.length ≤ bs.length →
      (∀ (j : Nat) (h : j < s.via.portA.length) (h' : j < bs.length),
        bs[j] &&& s.via.portA[j].mask = s.world.readAt j &&& s.via.portA[j].mask) →
        ∃ t t', exec .rdIra s = .next t
          ∧ exec .rdIra { s with world := { s.world with reads := bs } } = .next t'
          ∧ t'.via = t.via ∧ t'.answer = t.answer)
    ∧ (s.via.portB.length ≤ bs.length →
      (∀ (j : Nat) (h : j < s.via.portB.length) (h' : j < bs.length),
        bs[j] &&& s.via.portB[j].mask = s.world.readAt j &&& s.via.portB[j].mask) →
        ∃ t t', exec .rdIrb s = .next t
          ∧ exec .rdIrb { s with world := { s.world with reads := bs } } = .next t'
          ∧ t'.via = t.via ∧ t'.answer = t.answer)

/-- No port-A operation reads or changes anything of port B, and the other way round (R160 to R163). -/
def Obligations.PortsAreIndependent : Prop :=
  ∀ (s : State) (d o i r : Byte) (l : List Peripheral),
    (∀ op ∈ [Instr.wrOra d, .rdIra, .wrDdra d, .rdDdra],
      exec op { s with via := { s.via with orb := o, irb := i, ddrb := r, portB := l } }
        = mapNext (fun t => { t with via := { t.via with orb := o, irb := i, ddrb := r, portB := l } }) (exec op s))
    ∧ (∀ op ∈ [Instr.wrOrb d, .rdIrb, .wrDdrb d, .rdDdrb],
      exec op { s with via := { s.via with ora := o, ira := i, ddra := r, portA := l } }
        = mapNext (fun t => { t with via := { t.via with ora := o, ira := i, ddra := r, portA := l } }) (exec op s))

/-- With no peripheral attached a port reads `O & D` after any direction and output write (R163 and R161 corner case
1). -/
def Obligations.ReadBackWithoutPeripherals : Prop :=
  ∀ (s : State) (o d : Byte), s.Ready →
    (s.via.portA = [] → ∃ t u v, exec (.wrDdra d) s = .next t ∧ exec (.wrOra o) t = .next u
      ∧ exec .rdIra u = .next v ∧ v.answer = .byte (o &&& d) ∧ v.world.trace = u.world.trace)
    ∧ (s.via.portB = [] → ∃ t u v, exec (.wrDdrb d) s = .next t ∧ exec (.wrOrb o) t = .next u
      ∧ exec .rdIrb u = .next v ∧ v.answer = .byte (o &&& d) ∧ v.world.trace = u.world.trace)

/-- A direction change reaches the next read at once and no peripheral at all (R311; the spec's own decision 92 D15):
the bit written to ORx before it shows, though no peripheral was given it; for either port. -/
def Obligations.DirectionChangeIsNotSent : Prop :=
  ∀ (s : State) (e : Byte), s.Ready →
    (∃ t u, exec (.wrDdra e) s = .next t ∧ t.world = s.world ∧ t.via.ora = s.via.ora
      ∧ exec .rdIra t = .next u
      ∧ u.answer = .byte ((s.via.ora &&& e) ||| (orOfMasked s.via.portA (s.portBytes .a) &&& ~~~e)))
    ∧ (∃ t u, exec (.wrDdrb e) s = .next t ∧ t.world = s.world ∧ t.via.orb = s.via.orb
      ∧ exec .rdIrb t = .next u
      ∧ u.answer = .byte ((s.via.orb &&& e) ||| (orOfMasked s.via.portB (s.portBytes .b) &&& ~~~e)))

/-- R176, R178, R180, R182, R184, R186, R188, R190, R192, R194, R196: a write to an unhandled register select sets
halt and does nothing else. -/
def Obligations.UnhandledRegisterWritesFault : Prop :=
  ∀ row ∈ ([(0x4#4, 0b00100#5, 0x0C00400#25, Instr.wrUnh4),
      (0x5#4, 0b00101#5, 0x0C00500#25, Instr.wrUnh5),
      (0x6#4, 0b00110#5, 0x0C00600#25, Instr.wrUnh6),
      (0x7#4, 0b00111#5, 0x0C00700#25, Instr.wrUnh7),
      (0x8#4, 0b01000#5, 0x0C00800#25, Instr.wrUnh8),
      (0x9#4, 0b01001#5, 0x0C00900#25, Instr.wrUnh9),
      (0xA#4, 0b01010#5, 0x0C00A00#25, Instr.wrUnhA),
      (0xB#4, 0b01011#5, 0x0C00B00#25, Instr.wrUnhB),
      (0xD#4, 0b01101#5, 0x0C00D00#25, Instr.wrUnhD),
      (0xE#4, 0b01110#5, 0x0C00E00#25, Instr.wrUnhE),
      (0xF#4, 0b01111#5, 0x0C00F00#25, Instr.wrUnhF)] : List (RegSel × ViaWord × BusWord × (Byte → Instr))),
    ViaRow row.2.1 row.2.2.1 row.2.2.2
      ∧ ∀ (s : State) (d : Byte), s.Ready →
        exec (row.2.2.2 d) s = .next
          { s with
            halt := some (.viaUnhandledRegister row.1 .write)
            phase := .running
            answer := .none }

/-- R177, R179, R181, R183, R185, R187, R189, R191, R193, R195, R197: a read of an unhandled register select sets
halt, returns no byte, asks no peripheral and does nothing else. -/
def Obligations.UnhandledRegisterReadsFault : Prop :=
  ∀ row ∈ ([(0x4#4, 0b10100#5, 0x1C00400#25, fun _ => Instr.rdUnh4),
      (0x5#4, 0b10101#5, 0x1C00500#25, fun _ => Instr.rdUnh5),
      (0x6#4, 0b10110#5, 0x1C00600#25, fun _ => Instr.rdUnh6),
      (0x7#4, 0b10111#5, 0x1C00700#25, fun _ => Instr.rdUnh7),
      (0x8#4, 0b11000#5, 0x1C00800#25, fun _ => Instr.rdUnh8),
      (0x9#4, 0b11001#5, 0x1C00900#25, fun _ => Instr.rdUnh9),
      (0xA#4, 0b11010#5, 0x1C00A00#25, fun _ => Instr.rdUnhA),
      (0xB#4, 0b11011#5, 0x1C00B00#25, fun _ => Instr.rdUnhB),
      (0xD#4, 0b11101#5, 0x1C00D00#25, fun _ => Instr.rdUnhD),
      (0xE#4, 0b11110#5, 0x1C00E00#25, fun _ => Instr.rdUnhE),
      (0xF#4, 0b11111#5, 0x1C00F00#25, fun _ => Instr.rdUnhF)] : List (RegSel × ViaWord × BusWord × (Byte → Instr))),
    ViaRow row.2.1 row.2.2.1 row.2.2.2
      ∧ ∀ (s : State) (d : Byte), s.Ready →
        exec (row.2.2.2 d) s = .next
          { s with
            halt := some (.viaUnhandledRegister row.1 .read)
            phase := .running
            answer := .none }

/-! ## Host events on the VIA -/

/-- R171 with 92 D15: the seven registers are zeroed and nothing else changes; no peripheral is called; a second
reset changes no register. -/
def Obligations.ResetZeroesTheRegisters : Prop :=
  ∀ (s : State), s.Ready →
    exec .viaReset s = .next
      { s with
        via := ⟨0x00, 0x00, 0x00, 0x00, 0x00, 0x00, 0x00, s.via.portA, s.via.portB⟩
        answer := .none }

/-- A peripheral on no port yet is appended, with the log event, and nothing of it is called (R174, R175). One that is
on a port already is refused: that clause is the model's choice (log entry 11, DESIGN CHOICE), by which it follows 93
U5; the block itself does not detect it (R174 corner case 4). -/
def Obligations.PeripheralAttachmentAppends : Prop :=
  ∀ (s : State) (p : Peripheral), s.Ready →
    ((∀ q ∈ s.via.portA ++ s.via.portB, q.id ≠ p.id) →
      exec (.viaAttachA p) s = .next
          { s with
            via := { s.via with portA := s.via.portA ++ [p] }
            answer := .none
            world := s.world.afterEvents [.attachLog .a p.name p.mask] }
        ∧ exec (.viaAttachB p) s = .next
          { s with
            via := { s.via with portB := s.via.portB ++ [p] }
            answer := .none
            world := s.world.afterEvents [.attachLog .b p.name p.mask] })
    ∧ ((∃ q ∈ s.via.portA ++ s.via.portB, q.id = p.id) →
      exec (.viaAttachA p) s = .refused (.peripheralAttachedTwice p.id)
        ∧ exec (.viaAttachB p) s = .refused (.peripheralAttachedTwice p.id))

/-- R198 (state after: the spec's own decision 92 D16; the phase is the model's record, log entry 4): from every state,
halted or not, each peripheral is shut down once, port A before port B, in order, whatever earlier ones reported;
registers, lists, RAM and halt are unchanged. That a second VIA_SHUTDOWN, in the phase shut down, completes too is the
model's choice (log entry 12, DESIGN CHOICE): 93 U14 says what it does where a model admits it, while 92 D16 has it
refused. -/
def Obligations.ShutdownCallsEveryPeripheral : Prop :=
  ∀ (s : State),
    exec .viaShutdown s = .next
      { s with
        phase := .shutDown
        answer := .none
        world := s.world.afterReports (s.via.portA.length + s.via.portB.length)
          (shutdownCalls .a ((s.world.reportsNext (s.via.portA.length + s.via.portB.length)).take s.via.portA.length)
            ++ shutdownCalls .b
              ((s.world.reportsNext (s.via.portA.length + s.via.portB.length)).drop s.via.portA.length)) }

/-- R172, R173: the two extraction functions give the four fields of the PCR, which cover it exactly (R108), and
change nothing. -/
def Obligations.ControlModesExtractTheFields : Prop :=
  ∀ (s : State), s.Ready →
    ∃ (ca1 cb1 : BitVec 1) (ca2 cb2 : BitVec 3), s.via.pcr = cb2 ++ cb1 ++ ca2 ++ ca1
      ∧ exec (.ctrl1Mode 0) s = .next { s with answer := .mode1 ca1 }
      ∧ exec (.ctrl2Mode 0) s = .next { s with answer := .mode3 ca2 }
      ∧ exec (.ctrl1Mode 4) s = .next { s with answer := .mode1 cb1 }
      ∧ exec (.ctrl2Mode 4) s = .next { s with answer := .mode3 cb2 }

/-- A control-mode query at an offset other than 0 and 4 is refused (the spec's own decision 92 D28). -/
def Obligations.OtherControlOffsetsAreRefused : Prop :=
  ∀ (s : State) (n : Nat), s.Ready → n ≠ 0 → n ≠ 4 →
    exec (.ctrl1Mode n) s = .refused (.controlOffset n) ∧ exec (.ctrl2Mode n) s = .refused (.controlOffset n)

/-- R248: RAM_SIZE bytes, byte `k` being the RAM's byte `k`, halted or not; nothing changes, no peripheral is asked. -/
def Obligations.SnapshotReturnsTheRam : Prop :=
  ∀ (s : State), s.phase ≠ .shutDown →
    ∃ bytes : List Byte, exec .ramSnapshot s = .next { s with answer := .snapshot bytes }
      ∧ bytes.length = s.params.ramSize
      ∧ ∀ (k : Nat) (h : k < bytes.length), bytes[k] = Memory.read s.ram k

/-! ## The Address Bus and its devices -/

/-- R137: the RAM's byte at the offset, with no side effect; in the fixed map a read below RAM_SIZE is RAM_RD. -/
def Obligations.RamReadReturnsTheByte : Prop :=
  (∀ (s : State) (off : Addr), s.Ready → off.toNat < s.params.ramSize →
      exec (.ramRd off) s = .next { s with phase := .running, answer := .byte (Memory.read s.ram off.toNat) })
    ∧ ∀ (p : Params) (a : Addr) (d : Byte), p.FixedMapSizes → a.toNat < p.ramSize →
        decode (fixedMap p) (.bus (BusWord.make true a d)) = .ok (.ramRd a)

/-- R138 (that a RAM keeps what is written is 93 G6): the one byte changes, every other byte of RAM reads as before,
nothing else changes. -/
def Obligations.RamWriteStoresOneByte : Prop :=
  (∀ (s : State) (off : Addr) (d : Byte), s.Ready → off.toNat < s.params.ramSize →
      ∃ ram, exec (.ramWr off d) s = .next { s with ram := ram, phase := .running, answer := .none }
        ∧ Memory.read ram off.toNat = d ∧ ∀ o, o ≠ off.toNat → Memory.read ram o = Memory.read s.ram o)
    ∧ ∀ (p : Params) (a : Addr) (d : Byte), p.FixedMapSizes → a.toNat < p.ramSize →
        decode (fixedMap p) (.bus (BusWord.make false a d)) = .ok (.ramWr a d)

/-- R139: the image's byte at the offset; in the fixed map with a ROM a read of its range is ROM_RD at
`addr - 0xE000`. -/
def Obligations.RomReadReturnsTheImage : Prop :=
  (∀ (s : State) (off : Addr), s.Ready → off.toNat < s.params.romSize →
      exec (.romRd off) s = .next
        { s with phase := .running, answer := .byte (Memory.read s.params.romImage off.toNat) })
    ∧ ∀ (p : Params) (a : Addr) (d : Byte), p.FixedMapSizes → p.hasRom = true → 0xE000 ≤ a.toNat →
        a.toNat < 0xE000 + p.romSize →
          decode (fixedMap p) (.bus (BusWord.make true a d)) = .ok (.romRd (a - 0xE000))

/-- A write into the ROM's range (the spec's own decision 92 D11; R264): the fault RomWrite under the policy `fault`,
nothing under `ignore`; nothing else changes under either. -/
def Obligations.RomWriteFollowsThePolicy : Prop :=
  ∀ (s : State) (a : Addr) (d : Byte), s.Ready →
    (s.params.romWritePolicy = .fault →
      exec (.romWr a d) s = .next
        { s with halt := some (.romWrite a d), phase := .running, answer := .none })
    ∧ (s.params.romWritePolicy = .ignore →
      exec (.romWr a d) s = .next { s with phase := .running, answer := .none })

/-- R141, R142: a word whose address no attachment owns is UNMAPPED_RD or UNMAPPED_WR, on any map, and each sets halt
and does nothing else. -/
def Obligations.UnmappedAccessFaults : Prop :=
  ∀ (s : State) (a : Addr) (d : Byte), s.Ready →
    exec (.unmappedRd a) s = .next
        { s with halt := some (.unmappedAccess a .read), phase := .running, answer := .none }
      ∧ exec (.unmappedWr a d) s = .next
        { s with halt := some (.unmappedAccess a .write), phase := .running, answer := .none }
      ∧ ∀ m : AddressMap, (∀ t ∈ m, ¬ (t.base.toNat ≤ a.toNat ∧ a.toNat < t.base.toNat + t.size)) →
        decode m (.bus (BusWord.make true a d)) = .ok (.unmappedRd a)
          ∧ decode m (.bus (BusWord.make false a d)) = .ok (.unmappedWr a d)

/-- R135: on an admitted map a bus read completes, and is what the owning device does at `addr - base`; the device's
byte is not altered; with no owner it is the fault UnmappedAccess. -/
def Obligations.BusReadAnswersAsTheOwner : Prop :=
  ∀ (s : State) (a : Addr), s.att.Admitted s.params → s.Ready →
    (∃ u, exec (.busRd a) s = .next u ∧ (u.halt = none → ∃ b, u.answer = .byte b))
      ∧ (∀ t, s.att.owner a = some t → t.dev = .ram →
        exec (.busRd a) s = .next
          { s with phase := .running, answer := .byte (Memory.read s.ram (a.toNat - t.base.toNat)) })
      ∧ (∀ t, s.att.owner a = some t → t.dev = .rom →
        exec (.busRd a) s = .next
          { s with phase := .running, answer := .byte (Memory.read s.params.romImage (a.toNat - t.base.toNat)) })
      ∧ (∀ t, s.att.owner a = some t → t.dev = .via →
        exec (.busRd a) s = exec (decodeViaRead (BitVec.ofNat 4 (a.toNat - t.base.toNat))) s)
      ∧ (s.att.owner a = none →
        exec (.busRd a) s = .next
          { s with halt := some (.unmappedAccess a .read), phase := .running, answer := .none })

/-- R136: on an admitted map a bus write completes, and is what the owning device does at `addr - base`; no other
device sees it, no RAM "underneath" the VIA. -/
def Obligations.BusWriteReachesOnlyTheOwner : Prop :=
  ∀ (s : State) (a : Addr) (d : Byte), s.att.Admitted s.params → s.Ready →
    (∃ u, exec (.busWr a d) s = .next u ∧ u.answer = .none)
      ∧ (∀ t, s.att.owner a = some t → t.dev = .ram →
        ∃ ram, exec (.busWr a d) s = .next { s with ram := ram, phase := .running, answer := .none }
          ∧ Memory.read ram (a.toNat - t.base.toNat) = d
          ∧ ∀ o, o ≠ a.toNat - t.base.toNat → Memory.read ram o = Memory.read s.ram o)
      ∧ (∀ t, s.att.owner a = some t → t.dev = .rom → exec (.busWr a d) s = exec (.romWr a d) s)
      ∧ (∀ t, s.att.owner a = some t → t.dev = .via →
        exec (.busWr a d) s = exec (decodeViaWrite (BitVec.ofNat 4 (a.toNat - t.base.toNat)) d) s)
      ∧ (s.att.owner a = none →
        exec (.busWr a d) s = .next
          { s with halt := some (.unmappedAccess a .write), phase := .running, answer := .none })

/-- The generic rows are the dispatch to the leaf (R107): in every state and on every map, admitted or not, a BUS word
that decodes does the same as its generic row. -/
def Obligations.GenericTransactionIsItsLeaf : Prop :=
  ∀ (s : State) (w : BusWord) (i : Instr), decode s.att (.bus w) = .ok i →
    exec (if w.isRead then .busRd w.addr else .busWr w.addr w.data) s = exec i s

/-- A RAM location reads as last written through the bus, and every other one as before (R83 a). -/
def Obligations.RamReturnsTheLastWrite : Prop :=
  ∀ (s : State) (a b : Addr) (d : Byte) (t u : Attachment), s.att.Admitted s.params → s.Ready →
    s.att.owner a = some t → t.dev = .ram → s.att.owner b = some u → u.dev = .ram →
      ∃ s₁ s₂ s₃, exec (.busWr a d) s = .next s₁ ∧ exec (.busRd b) s₁ = .next s₂ ∧ exec (.busRd b) s = .next s₃
        ∧ s₂.answer = if b.toNat - u.base.toNat = a.toNat - t.base.toNat then .byte d else s₃.answer

/-- R131: in the configuration phase a range within the space that shares no address with an attachment is appended,
and nothing else changes. -/
def Obligations.AttachAppendsADisjointRange : Prop :=
  ∀ (s : State) (dev : Device) (label : String) (b : Addr), s.Configuring → 1 ≤ dev.size s.params →
    b.toNat + dev.size s.params ≤ 0x10000 →
    (∀ t ∈ s.att, b.toNat + dev.size s.params ≤ t.base.toNat ∨ t.base.toNat + t.size ≤ b.toNat) →
      exec (.busAttach dev label b) s = .next
        { s with att := s.att ++ [⟨b, dev.size s.params, dev, label⟩], answer := .none }

/-- An empty device, or a range past 0xFFFF, faults ConfigRange before any overlap is looked for (the spec's own
decisions 92 D7, D9); bus.att is unchanged. -/
def Obligations.AttachOutsideTheSpaceFaults : Prop :=
  ∀ (s : State) (dev : Device) (label : String) (b : Addr), s.Configuring →
    (dev.size s.params = 0 ∨ 0x10000 < b.toNat + dev.size s.params) →
      exec (.busAttach dev label b) s = .next
        { s with halt := some (.configRange b (dev.size s.params)), answer := .none }

/-- A range within the space that shares an address with an attachment faults ConfigOverlap, naming the first such
attachment in list order (R131; the order is the spec's own decision 92 D7); bus.att is unchanged. -/
def Obligations.AttachReportsTheFirstOverlap : Prop :=
  ∀ (s : State) (dev : Device) (label : String) (b : Addr) (before after : AddressMap) (t : Attachment),
    s.Configuring → s.att = before ++ t :: after → 1 ≤ dev.size s.params →
    b.toNat + dev.size s.params ≤ 0x10000 →
    (∀ u ∈ before, b.toNat + dev.size s.params ≤ u.base.toNat ∨ u.base.toNat + u.size ≤ b.toNat) →
    t.base.toNat < b.toNat + dev.size s.params → b.toNat < t.base.toNat + t.size →
      exec (.busAttach dev label b) s = .next
        { s with halt := some (.configOverlap b (dev.size s.params) t.base t.size), answer := .none }

/-- BUS_ATTACH after the first bus transaction is refused (R144; the spec's own decision 92 D25). -/
def Obligations.AttachAfterTheFirstTransactionIsRefused : Prop :=
  ∀ (s : State) (dev : Device) (label : String) (b : Addr), s.halt = none → s.phase = .running →
    exec (.busAttach dev label b) s = .refused .attachAfterStart

/-! ## Start-up and teardown -/

/-- The start-up sequence (R241, R147) run from construction: the fixed map is built, the display, if any, is on port
B, every register is zero, nothing is halted. -/
def Obligations.StartupBuildsTheFixedMap : Prop :=
  ∀ (p : Params) (ram : Memory) (display : Option Peripheral), p.FixedMapSizes →
    Host.Core.run Sys2Proof.core (startup p display).length ((State.construct p ram).queue (startup p display))
      = .next
        { State.construct p ram with
          via := { Via.constructed with portB := display.toList }
          att := fixedMap p
          world := World.initial.afterEvents
            (display.toList.map fun q => .attachLog .b q.name q.mask) }

/-- A RAM longer than 0xC000 bytes stops the start-up at the VIA with ConfigOverlap, and the fourth operation has no
step: "process does not proceed to execution" (R147, R262, 90 C1). -/
def Obligations.OversizedRamNeverRuns : Prop :=
  ∀ (p : Params) (ram : Memory) (r : Request) (i : Instr), 0xC000 < p.ramSize → p.ramSize ≤ 0x10000 →
    decode [⟨Config.ramBase, p.ramSize, .ram, "RAM"⟩] r = .ok i → i.isTeardown = false →
      Host.Core.run Sys2Proof.core 4 ((State.construct p ram).queue ((startup p none).take 3 ++ [r]))
        = .fault (.halted (.configOverlap 0xC000 16 0x0000 p.ramSize))

/-- The teardown ends every run, clean, abnormal or halted (R247, R249, R272; 92 D16): nothing of the block but the
environment's record changes, and the phase is shut down. -/
def Obligations.TeardownEndsEveryRun : Prop :=
  ∀ (s : State) (e : Termination), s.phase ≠ .shutDown → s.ops = [] →
    ∃ t, Host.Core.run Sys2Proof.core (teardown e).length (s.queue (teardown e)) = .next t
      ∧ t.phase = .shutDown ∧ t.halt = s.halt ∧ t.via = s.via ∧ t.ram = s.ram ∧ t.att = s.att
      ∧ t.world.trace.length = s.world.trace.length + s.via.portA.length + s.via.portB.length

/-! ## The whole machine -/

/-- While halted no operation but RAM_SNAPSHOT and VIA_SHUTDOWN has a step (R271; the latch is 92 D8). -/
def Obligations.HaltedMachineHasNoStep : Prop :=
  ∀ (s : State) (f : FaultRecord) (i : Instr), s.halt = some f → i.isTeardown = false →
    exec i s = .fault (.halted f)

/-- Nothing clears halt, and no step of a halted machine changes a register, a list, the map or the RAM (R33, R271,
R273; 92 D8). -/
def Obligations.HaltIsSticky : Prop :=
  ∀ (s t : State) (f : FaultRecord), s.halt = some f → step s = .next t →
    t.halt = some f ∧ t.via = s.via ∧ t.att = s.att ∧ t.ram = s.ram

/-- After VIA_SHUTDOWN every operation but VIA_SHUTDOWN is refused (R198 corner case 6; 92 D16; a second
VIA_SHUTDOWN is admitted, log entry 12). -/
def Obligations.ShutDownMachineRefuses : Prop :=
  ∀ (s : State) (i : Instr), s.halt = none → s.phase = .shutDown → i ≠ .viaShutdown →
    exec i s = .refused .afterShutdown

/-- A faulting operation changes nothing but halt (and the model's own records phase and answer), calls no peripheral
and stores nothing (R269; 92 D8). -/
def Obligations.FaultsChangeNothingElse : Prop :=
  ∀ (s t : State) (i : Instr) (f : FaultRecord), exec i s = .next t → s.halt = none → t.halt = some f →
    t = { s with halt := some f, phase := t.phase, answer := .none }

/-- The closed list of faults and which operation raises each, when (R260); ConfigRomLoad is raised by none (R262). -/
def Obligations.FaultLatchNamesItsCause : Prop :=
  ∀ (s t : State) (i : Instr) (f : FaultRecord), exec i s = .next t → s.halt = none → t.halt = some f →
    f.raisedBy i s

/-- Who writes what (R20): each register, list, the map and the RAM is changed only by the operations the table
names, the generic rows standing for their leaf. That the map changes only in the configuration phase is not in R20's
table: it rests on R144, the spec's own decision 92 D25, and on the phase, the model's record (log entry 4, DESIGN
CHOICE). -/
def Obligations.OnlyItsWritersChangeAField : Prop :=
  ∀ (s t : State) (i : Instr), exec i s = .next t →
    (t.via.ora ≠ s.via.ora → leafOf s.att i = .wrOra t.via.ora ∨ i = .viaReset)
      ∧ (t.via.orb ≠ s.via.orb → leafOf s.att i = .wrOrb t.via.orb ∨ i = .viaReset)
      ∧ (t.via.ira ≠ s.via.ira → leafOf s.att i = .rdIra ∨ i = .viaReset)
      ∧ (t.via.irb ≠ s.via.irb → leafOf s.att i = .rdIrb ∨ i = .viaReset)
      ∧ (t.via.ddra ≠ s.via.ddra → leafOf s.att i = .wrDdra t.via.ddra ∨ i = .viaReset)
      ∧ (t.via.ddrb ≠ s.via.ddrb → leafOf s.att i = .wrDdrb t.via.ddrb ∨ i = .viaReset)
      ∧ (t.via.pcr ≠ s.via.pcr → leafOf s.att i = .wrPcr t.via.pcr ∨ i = .viaReset)
      ∧ (t.via.portA ≠ s.via.portA → ∃ p, i = .viaAttachA p)
      ∧ (t.via.portB ≠ s.via.portB → ∃ p, i = .viaAttachB p)
      ∧ (t.att ≠ s.att → s.phase = .configuration ∧ ∃ dev label b, i = .busAttach dev label b)
      ∧ (∀ o, Memory.read t.ram o ≠ Memory.read s.ram o →
          ∃ off, leafOf s.att i = .ramWr off (Memory.read t.ram o) ∧ off.toNat = o)

/-- The peripheral lists, the attachment list and the trace only grow, at the end (R30, R31, R34, R40). -/
def Obligations.ListsOnlyGrow : Prop :=
  ∀ (s t : State), step s = .next t →
    s.via.portA <+: t.via.portA ∧ s.via.portB <+: t.via.portB ∧ s.att <+: t.att
      ∧ s.world.trace <+: t.world.trace

/-- Every event of the trace has its cause (R40; no reset, direction or control write calls a peripheral: 92 D15). -/
def Obligations.PeripheralCallsHaveTheirCause : Prop :=
  ∀ (s t : State) (i : Instr), exec i s = .next t →
    ∃ es, t.world.trace = s.world.trace ++ es ∧ ∀ e ∈ es, Event.causedBy e s.params (leafOf s.att i)

/-- The parameters, the ROM image among them, are constant (R36, R39). -/
def Obligations.ParametersAreConstant : Prop :=
  ∀ (s t : State), step s = .next t → t.params = s.params

/-- The stored input registers can never be observed (R23, R24, R42): what they hold changes no outcome, no answer, no
event and no other state. -/
def Obligations.InputRegistersAreNeverObserved : Prop :=
  ∀ (s : State),
    mapNext State.withoutInputs (step s.withoutInputs) = mapNext State.withoutInputs (step s)

/-- Every step keeps the invariant: an admitted map (R34, R131), RAM within RAM_SIZE (R35), and two conjuncts that rest
on the model's choices. The canonical form of RAM and image is the model's representation (log entry 2, DESIGN CHOICE).
That no peripheral is attached twice is a duty of the host (R229) the block does not check; the model keeps it by
refusing a second attachment (log entry 11, DESIGN CHOICE; 93 U5). -/
def Obligations.StepKeepsTheInvariant : Prop :=
  ∀ (s t : State), s.Inv → step s = .next t → t.Inv
end

