-- ==== Sys2Proof/Laws/AddressMap.lean ====
section
/-! SUPPORT. What the owner of an address is, and the local offset it is given. -/

namespace Sys2Proof

theorem Attachment.owns_iff (t : Attachment) (a : Addr) :
    t.owns a = true ↔ t.base.toNat ≤ a.toNat ∧ a.toNat < t.base.toNat + t.size := by
  unfold Attachment.owns Attachment.limit
  rw [Bool.and_eq_true, decide_eq_true_iff, decide_eq_true_iff]

/-- The owner is an attachment of the list and its range holds the address. -/
theorem AddressMap.owner_some {m : AddressMap} {a : Addr} {t : Attachment} (h : m.owner a = some t) :
    t ∈ m ∧ t.owns a = true :=
  ⟨List.mem_of_find?_eq_some h, by simpa using List.find?_some h⟩

/-- The offset subtraction does not borrow and stays below the size (R61, R148). -/
theorem Attachment.offset_toNat {t : Attachment} {a : Addr} (h : t.owns a = true) :
    (t.offset a).toNat = a.toNat - t.base.toNat ∧ (t.offset a).toNat < t.size := by
  obtain ⟨h1, h2⟩ := (Attachment.owns_iff t a).mp h
  have : (t.offset a).toNat = a.toNat - t.base.toNat := by
    unfold Attachment.offset
    rw [BitVec.toNat_sub]
    omega
  exact ⟨this, by omega⟩

/-- Two attachments that do not overlap own no address together (R133). -/
theorem Attachment.not_both_own {t u : Attachment} (h : t.overlaps u = false) (a : Addr) :
    ¬ (t.owns a = true ∧ u.owns a = true) := by
  simp only [Attachment.overlaps, rangesOverlap, Attachment.owns_iff, Bool.and_eq_false_iff,
    decide_eq_false_iff_not] at *
  omega

/-- On an admitted map the offset a device is given is below the size it declares. -/
theorem AddressMap.owner_offset_lt {p : Params} {m : AddressMap} (hm : m.Admitted p) {a : Addr} {t : Attachment}
    (h : m.owner a = some t) : (t.offset a).toNat < t.dev.size p := by
  obtain ⟨hmem, how⟩ := AddressMap.owner_some h
  have := (Attachment.offset_toNat how).2
  have := (hm.1 t hmem).1
  omega

/-- On an admitted map an attachment whose range holds an address is its owner (R134). -/
theorem AddressMap.owner_of_mem {p : Params} {m : AddressMap} (hm : m.Admitted p) {a : Addr} {t : Attachment}
    (ht : t ∈ m) (h : t.owns a = true) : m.owner a = some t := by
  obtain ⟨before, after, rfl⟩ := List.append_of_mem ht
  have hnone : before.find? (fun u => u.owns a) = none := by
    rw [List.find?_eq_none]
    intro u hu hua
    exact Attachment.not_both_own ((List.pairwise_append.mp hm.2).2.2 u hu t (by simp)) a ⟨hua, h⟩
  simp [AddressMap.owner, List.find?_append, hnone, h]

end Sys2Proof
end

