-- ==== Sys2Proof/Laws/Decode.lean ====
section
/-! SUPPORT. The fields of the words, and what a BUS word decodes to by its owner. -/

namespace Sys2Proof

@[simp] theorem BusWord.make_addr (read : Bool) (a : Addr) (d : Byte) : (BusWord.make read a d).addr = a := by
  unfold BusWord.make BusWord.addr
  ext k hk
  rw [BitVec.getElem_extractLsb', BitVec.getLsbD_append, BitVec.getLsbD_append]
  have h1 : ¬ (8 + k < 8) := by omega
  have h2 : 8 + k - 8 = k := by omega
  simp [h1, h2, hk, BitVec.getLsbD_eq_getElem]

@[simp] theorem BusWord.make_data (read : Bool) (a : Addr) (d : Byte) : (BusWord.make read a d).data = d := by
  unfold BusWord.make BusWord.data
  ext k hk
  rw [BitVec.getElem_extractLsb', BitVec.getLsbD_append]
  simp [hk, BitVec.getLsbD_eq_getElem]

@[simp] theorem BusWord.make_isRead (read : Bool) (a : Addr) (d : Byte) :
    (BusWord.make read a d).isRead = read := by
  unfold BusWord.make BusWord.isRead
  rw [BitVec.getLsbD_append, BitVec.getLsbD_append]
  simp

/-- A BUS word is its three fields (R102). -/
theorem BusWord.make_fields (w : BusWord) : BusWord.make w.isRead w.addr w.data = w := by
  unfold BusWord.make BusWord.isRead BusWord.addr BusWord.data
  apply BitVec.eq_of_getLsbD_eq
  intro k hk
  rw [BitVec.getLsbD_append, BitVec.getLsbD_append]
  simp only [BitVec.getLsbD_extractLsb', BitVec.getLsbD_ofBool]
  by_cases h1 : k < 8
  · simp [h1]
  · by_cases h2 : k - 8 < 16
    · simp [h1, h2]; congr 1; omega
    · have : k = 24 := by omega
      subst this; simp

@[simp] theorem ViaWord.make_isRead (read : Bool) (rs : RegSel) : (ViaWord.make read rs).isRead = read := by
  revert read rs; decide

@[simp] theorem ViaWord.make_rs (read : Bool) (rs : RegSel) : (ViaWord.make read rs).rs = rs := by
  revert read rs; decide

/-- A BUS word from its fields decodes by the owner of its address (R104). -/
theorem decode_make (m : AddressMap) (read : Bool) (a : Addr) (d : Byte) :
    decode m (.bus (BusWord.make read a d)) =
      match m.owner a with
      | some t => decodeAccess t.dev read a (t.offset a) d
      | none => .ok (if read then .unmappedRd a else .unmappedWr a d) := by
  cases h : m.owner a <;> simp [decode, decodeBus, h]

/-- An access to the VIA at an offset it has (R105). -/
theorem decodeAccess_via (read : Bool) (a off : Addr) (d : Byte) (h : off.toNat < Config.viaSize) :
    decodeAccess .via read a off d =
      .ok (if read then decodeViaRead (off.extractLsb' 0 4) else decodeViaWrite (off.extractLsb' 0 4) d) := by
  simp [decodeAccess, h, decodeVia]

end Sys2Proof
end

