-- ==== Sys2Proof/Laws/Memory.lean ====
section
/-! SUPPORT. The laws of byte memory: a read after a write, and that a write keeps the canonical form. -/

namespace Sys2Proof

@[simp] theorem Memory.read_nil (a : Nat) : Memory.read [] a = Memory.unlisted := rfl

theorem Memory.read_cons (c : Host.Cell) (m : Memory) (a : Nat) :
    Memory.read (c :: m) a = if c.1 = a then c.2 else Memory.read m a := rfl

theorem Memory.read_clear_same (m : Memory) (a : Nat) : Memory.read (Memory.clear m a) a = Memory.unlisted := by
  induction m with
  | nil => rfl
  | cons c m ih =>
    by_cases h : c.1 = a <;> simp_all [Memory.clear, Memory.read_cons]

theorem Memory.read_clear_other (m : Memory) {a b : Nat} (hab : b ≠ a) :
    Memory.read (Memory.clear m a) b = Memory.read m b := by
  induction m with
  | nil => rfl
  | cons c m ih =>
    by_cases h : c.1 = a
    · have hb : c.1 ≠ b := fun e => hab (e.symm.trans h)
      simp_all [Memory.clear, Memory.read_cons]
    · simp_all [Memory.clear, Memory.read_cons]

/-- A cell put into a memory that has none for its offset is what a read there gives. -/
theorem Memory.read_put_same (a : Nat) (v : Byte) (m : Memory) (h : ∀ c ∈ m, c.1 ≠ a) :
    Memory.read (Memory.put a v m) a = v := by
  induction m with
  | nil => simp [Memory.put, Memory.read_cons]
  | cons c m ih =>
    have hc : c.1 ≠ a := h c (by simp)
    have hm : ∀ d ∈ m, d.1 ≠ a := fun d hd => h d (by simp [hd])
    unfold Memory.put
    split <;> simp [Memory.read_cons, hc, ih hm]

theorem Memory.read_put_other {a b : Nat} (v : Byte) (m : Memory) (hab : b ≠ a) :
    Memory.read (Memory.put a v m) b = Memory.read m b := by
  induction m with
  | nil => simp [Memory.put, Memory.read_cons, hab.symm]
  | cons c m ih =>
    unfold Memory.put
    split <;> simp [Memory.read_cons, hab.symm, ih]

theorem Memory.clear_fst_ne (m : Memory) (a : Nat) : ∀ c ∈ Memory.clear m a, c.1 ≠ a := by
  intro c hc
  simpa using (List.mem_filter.mp hc).2

/-- A read after a write, at every offset (R137, R138). -/
theorem Memory.read_write (m : Memory) (a b : Nat) (v : Byte) :
    Memory.read (Memory.write m a v) b = if b = a then v else Memory.read m b := by
  by_cases hab : b = a
  · subst hab
    unfold Memory.write
    split
    · next hv => simp [Memory.read_clear_same, hv]
    · simp [Memory.read_put_same _ _ _ (Memory.clear_fst_ne m b)]
  · rw [if_neg hab]
    unfold Memory.write
    split
    · rw [Memory.read_clear_other _ hab]
    · rw [Memory.read_put_other _ _ hab, Memory.read_clear_other _ hab]

theorem Memory.clear_wf {m : Memory} (h : Memory.wf m) (a : Nat) : Memory.wf (Memory.clear m a) :=
  ⟨h.1.filter _, fun c hc => h.2 c (List.mem_filter.mp hc).1⟩

theorem Memory.mem_put {a : Nat} {v : Byte} {m : Memory} {c : Host.Cell} (hc : c ∈ Memory.put a v m) :
    c = (a, v) ∨ c ∈ m := by
  induction m with
  | nil => simpa [Memory.put] using hc
  | cons d m ih =>
    unfold Memory.put at hc
    split at hc
    · simpa using hc
    · rcases List.mem_cons.mp hc with h | h
      · exact Or.inr (by simp [h])
      · exact (ih h).imp id (fun h => by simp [h])

theorem Memory.put_wf {a : Nat} {v : Byte} {m : Memory} (hv : v ≠ Memory.unlisted) (hm : Memory.wf m)
    (ha : ∀ c ∈ m, c.1 ≠ a) : Memory.wf (Memory.put a v m) := by
  refine ⟨?_, fun c hc => (Memory.mem_put hc).elim (fun h => by simpa [h] using hv) (hm.2 c)⟩
  obtain ⟨hp, -⟩ := hm
  induction m with
  | nil => simp [Memory.put]
  | cons d m ih =>
    obtain ⟨hd, hp'⟩ := List.pairwise_cons.mp hp
    have hda : d.1 ≠ a := ha d (by simp)
    unfold Memory.put
    split
    · next hlt =>
      refine List.pairwise_cons.mpr ⟨fun c hc => ?_, hp⟩
      rcases List.mem_cons.mp hc with h | h
      · simpa [h] using hlt
      · exact lt_trans hlt (hd c h)
    · next hle =>
      refine List.pairwise_cons.mpr ⟨fun c hc => ?_, ih (fun c hc => ha c (by simp [hc])) hp'⟩
      rcases Memory.mem_put hc with h | h
      · subst h
        exact lt_of_le_of_ne (Nat.le_of_not_lt hle) hda
      · exact hd c h

/-- A write keeps the canonical form. -/
theorem Memory.write_wf {m : Memory} (h : Memory.wf m) (a : Nat) (v : Byte) :
    Memory.wf (Memory.write m a v) := by
  unfold Memory.write
  split
  · exact Memory.clear_wf h a
  · next hv => exact Memory.put_wf hv (Memory.clear_wf h a) (Memory.clear_fst_ne m a)

/-- A write inside a device's size keeps the memory inside it. -/
theorem Memory.write_below {m : Memory} {n : Nat} (h : Memory.below m n) {a : Nat} (ha : a < n) (v : Byte) :
    Memory.below (Memory.write m a v) n := by
  have hclear : Memory.below (Memory.clear m a) n := fun c hc => h c (List.mem_filter.mp hc).1
  unfold Memory.write
  split
  · exact hclear
  · exact fun c hc => (Memory.mem_put hc).elim (fun e => by simpa [e] using ha) (hclear c)

@[simp] theorem Memory.bytes_length (m : Memory) (n : Nat) : (Memory.bytes m n).length = n := by
  simp [Memory.bytes]

@[simp] theorem Memory.bytes_get (m : Memory) (n k : Nat) (h : k < (Memory.bytes m n).length) :
    (Memory.bytes m n)[k] = Memory.read m k := by
  simp [Memory.bytes]

end Sys2Proof
end

