-- ==== Sys2Proof/Laws/State.lean ====
section
/-! SUPPORT. One lemma per field per update of the state, and per register per update of the VIA. -/

namespace Sys2Proof.Machine

@[simp] theorem State.withVia_params (s : State) (v : Via) : (s.withVia v).params = s.params := rfl
@[simp] theorem State.withVia_via (s : State) (v : Via) : (s.withVia v).via = v := rfl
@[simp] theorem State.withVia_att (s : State) (v : Via) : (s.withVia v).att = s.att := rfl
@[simp] theorem State.withVia_ram (s : State) (v : Via) : (s.withVia v).ram = s.ram := rfl
@[simp] theorem State.withVia_halt (s : State) (v : Via) : (s.withVia v).halt = s.halt := rfl
@[simp] theorem State.withVia_phase (s : State) (v : Via) : (s.withVia v).phase = s.phase := rfl
@[simp] theorem State.withVia_answer (s : State) (v : Via) : (s.withVia v).answer = s.answer := rfl
@[simp] theorem State.withVia_ops (s : State) (v : Via) : (s.withVia v).ops = s.ops := rfl
@[simp] theorem State.withVia_world (s : State) (v : Via) : (s.withVia v).world = s.world := rfl

@[simp] theorem State.withAtt_params (s : State) (m : AddressMap) : (s.withAtt m).params = s.params := rfl
@[simp] theorem State.withAtt_via (s : State) (m : AddressMap) : (s.withAtt m).via = s.via := rfl
@[simp] theorem State.withAtt_att (s : State) (m : AddressMap) : (s.withAtt m).att = m := rfl
@[simp] theorem State.withAtt_ram (s : State) (m : AddressMap) : (s.withAtt m).ram = s.ram := rfl
@[simp] theorem State.withAtt_halt (s : State) (m : AddressMap) : (s.withAtt m).halt = s.halt := rfl
@[simp] theorem State.withAtt_phase (s : State) (m : AddressMap) : (s.withAtt m).phase = s.phase := rfl
@[simp] theorem State.withAtt_answer (s : State) (m : AddressMap) : (s.withAtt m).answer = s.answer := rfl
@[simp] theorem State.withAtt_ops (s : State) (m : AddressMap) : (s.withAtt m).ops = s.ops := rfl
@[simp] theorem State.withAtt_world (s : State) (m : AddressMap) : (s.withAtt m).world = s.world := rfl

@[simp] theorem State.withRam_params (s : State) (m : Memory) : (s.withRam m).params = s.params := rfl
@[simp] theorem State.withRam_via (s : State) (m : Memory) : (s.withRam m).via = s.via := rfl
@[simp] theorem State.withRam_att (s : State) (m : Memory) : (s.withRam m).att = s.att := rfl
@[simp] theorem State.withRam_ram (s : State) (m : Memory) : (s.withRam m).ram = m := rfl
@[simp] theorem State.withRam_halt (s : State) (m : Memory) : (s.withRam m).halt = s.halt := rfl
@[simp] theorem State.withRam_phase (s : State) (m : Memory) : (s.withRam m).phase = s.phase := rfl
@[simp] theorem State.withRam_answer (s : State) (m : Memory) : (s.withRam m).answer = s.answer := rfl
@[simp] theorem State.withRam_ops (s : State) (m : Memory) : (s.withRam m).ops = s.ops := rfl
@[simp] theorem State.withRam_world (s : State) (m : Memory) : (s.withRam m).world = s.world := rfl

@[simp] theorem State.withHalt_params (s : State) (h : Option FaultRecord) : (s.withHalt h).params = s.params := rfl
@[simp] theorem State.withHalt_via (s : State) (h : Option FaultRecord) : (s.withHalt h).via = s.via := rfl
@[simp] theorem State.withHalt_att (s : State) (h : Option FaultRecord) : (s.withHalt h).att = s.att := rfl
@[simp] theorem State.withHalt_ram (s : State) (h : Option FaultRecord) : (s.withHalt h).ram = s.ram := rfl
@[simp] theorem State.withHalt_halt (s : State) (h : Option FaultRecord) : (s.withHalt h).halt = h := rfl
@[simp] theorem State.withHalt_phase (s : State) (h : Option FaultRecord) : (s.withHalt h).phase = s.phase := rfl
@[simp] theorem State.withHalt_answer (s : State) (h : Option FaultRecord) : (s.withHalt h).answer = s.answer := rfl
@[simp] theorem State.withHalt_ops (s : State) (h : Option FaultRecord) : (s.withHalt h).ops = s.ops := rfl
@[simp] theorem State.withHalt_world (s : State) (h : Option FaultRecord) : (s.withHalt h).world = s.world := rfl

@[simp] theorem State.withPhase_params (s : State) (ph : Phase) : (s.withPhase ph).params = s.params := rfl
@[simp] theorem State.withPhase_via (s : State) (ph : Phase) : (s.withPhase ph).via = s.via := rfl
@[simp] theorem State.withPhase_att (s : State) (ph : Phase) : (s.withPhase ph).att = s.att := rfl
@[simp] theorem State.withPhase_ram (s : State) (ph : Phase) : (s.withPhase ph).ram = s.ram := rfl
@[simp] theorem State.withPhase_halt (s : State) (ph : Phase) : (s.withPhase ph).halt = s.halt := rfl
@[simp] theorem State.withPhase_phase (s : State) (ph : Phase) : (s.withPhase ph).phase = ph := rfl
@[simp] theorem State.withPhase_answer (s : State) (ph : Phase) : (s.withPhase ph).answer = s.answer := rfl
@[simp] theorem State.withPhase_ops (s : State) (ph : Phase) : (s.withPhase ph).ops = s.ops := rfl
@[simp] theorem State.withPhase_world (s : State) (ph : Phase) : (s.withPhase ph).world = s.world := rfl

@[simp] theorem State.withAnswer_params (s : State) (r : Answer) : (s.withAnswer r).params = s.params := rfl
@[simp] theorem State.withAnswer_via (s : State) (r : Answer) : (s.withAnswer r).via = s.via := rfl
@[simp] theorem State.withAnswer_att (s : State) (r : Answer) : (s.withAnswer r).att = s.att := rfl
@[simp] theorem State.withAnswer_ram (s : State) (r : Answer) : (s.withAnswer r).ram = s.ram := rfl
@[simp] theorem State.withAnswer_halt (s : State) (r : Answer) : (s.withAnswer r).halt = s.halt := rfl
@[simp] theorem State.withAnswer_phase (s : State) (r : Answer) : (s.withAnswer r).phase = s.phase := rfl
@[simp] theorem State.withAnswer_answer (s : State) (r : Answer) : (s.withAnswer r).answer = r := rfl
@[simp] theorem State.withAnswer_ops (s : State) (r : Answer) : (s.withAnswer r).ops = s.ops := rfl
@[simp] theorem State.withAnswer_world (s : State) (r : Answer) : (s.withAnswer r).world = s.world := rfl

@[simp] theorem State.withOps_params (s : State) (q : List Request) : (s.withOps q).params = s.params := rfl
@[simp] theorem State.withOps_via (s : State) (q : List Request) : (s.withOps q).via = s.via := rfl
@[simp] theorem State.withOps_att (s : State) (q : List Request) : (s.withOps q).att = s.att := rfl
@[simp] theorem State.withOps_ram (s : State) (q : List Request) : (s.withOps q).ram = s.ram := rfl
@[simp] theorem State.withOps_halt (s : State) (q : List Request) : (s.withOps q).halt = s.halt := rfl
@[simp] theorem State.withOps_phase (s : State) (q : List Request) : (s.withOps q).phase = s.phase := rfl
@[simp] theorem State.withOps_answer (s : State) (q : List Request) : (s.withOps q).answer = s.answer := rfl
@[simp] theorem State.withOps_ops (s : State) (q : List Request) : (s.withOps q).ops = q := rfl
@[simp] theorem State.withOps_world (s : State) (q : List Request) : (s.withOps q).world = s.world := rfl

@[simp] theorem State.withWorld_params (s : State) (w : World) : (s.withWorld w).params = s.params := rfl
@[simp] theorem State.withWorld_via (s : State) (w : World) : (s.withWorld w).via = s.via := rfl
@[simp] theorem State.withWorld_att (s : State) (w : World) : (s.withWorld w).att = s.att := rfl
@[simp] theorem State.withWorld_ram (s : State) (w : World) : (s.withWorld w).ram = s.ram := rfl
@[simp] theorem State.withWorld_halt (s : State) (w : World) : (s.withWorld w).halt = s.halt := rfl
@[simp] theorem State.withWorld_phase (s : State) (w : World) : (s.withWorld w).phase = s.phase := rfl
@[simp] theorem State.withWorld_answer (s : State) (w : World) : (s.withWorld w).answer = s.answer := rfl
@[simp] theorem State.withWorld_ops (s : State) (w : World) : (s.withWorld w).ops = s.ops := rfl
@[simp] theorem State.withWorld_world (s : State) (w : World) : (s.withWorld w).world = w := rfl

@[simp] theorem State.raise_params (s : State) (f : FaultRecord) : (s.raise f).params = s.params := rfl
@[simp] theorem State.raise_via (s : State) (f : FaultRecord) : (s.raise f).via = s.via := rfl
@[simp] theorem State.raise_att (s : State) (f : FaultRecord) : (s.raise f).att = s.att := rfl
@[simp] theorem State.raise_ram (s : State) (f : FaultRecord) : (s.raise f).ram = s.ram := rfl
@[simp] theorem State.raise_halt (s : State) (f : FaultRecord) : (s.raise f).halt = some (s.halt.getD f) := rfl
@[simp] theorem State.raise_phase (s : State) (f : FaultRecord) : (s.raise f).phase = s.phase := rfl
@[simp] theorem State.raise_answer (s : State) (f : FaultRecord) : (s.raise f).answer = .none := rfl
@[simp] theorem State.raise_ops (s : State) (f : FaultRecord) : (s.raise f).ops = s.ops := rfl
@[simp] theorem State.raise_world (s : State) (f : FaultRecord) : (s.raise f).world = s.world := rfl

@[simp] theorem Via.setOut_a_ora (v : Via) (d : Byte) : (v.setOut d .a).ora = d := rfl
@[simp] theorem Via.setOut_a_orb (v : Via) (d : Byte) : (v.setOut d .a).orb = v.orb := rfl
@[simp] theorem Via.setOut_a_ira (v : Via) (d : Byte) : (v.setOut d .a).ira = v.ira := rfl
@[simp] theorem Via.setOut_a_irb (v : Via) (d : Byte) : (v.setOut d .a).irb = v.irb := rfl
@[simp] theorem Via.setOut_a_ddra (v : Via) (d : Byte) : (v.setOut d .a).ddra = v.ddra := rfl
@[simp] theorem Via.setOut_a_ddrb (v : Via) (d : Byte) : (v.setOut d .a).ddrb = v.ddrb := rfl
@[simp] theorem Via.setOut_a_pcr (v : Via) (d : Byte) : (v.setOut d .a).pcr = v.pcr := rfl
@[simp] theorem Via.setOut_a_portA (v : Via) (d : Byte) : (v.setOut d .a).portA = v.portA := rfl
@[simp] theorem Via.setOut_a_portB (v : Via) (d : Byte) : (v.setOut d .a).portB = v.portB := rfl
@[simp] theorem Via.setOut_b_ora (v : Via) (d : Byte) : (v.setOut d .b).ora = v.ora := rfl
@[simp] theorem Via.setOut_b_orb (v : Via) (d : Byte) : (v.setOut d .b).orb = d := rfl
@[simp] theorem Via.setOut_b_ira (v : Via) (d : Byte) : (v.setOut d .b).ira = v.ira := rfl
@[simp] theorem Via.setOut_b_irb (v : Via) (d : Byte) : (v.setOut d .b).irb = v.irb := rfl
@[simp] theorem Via.setOut_b_ddra (v : Via) (d : Byte) : (v.setOut d .b).ddra = v.ddra := rfl
@[simp] theorem Via.setOut_b_ddrb (v : Via) (d : Byte) : (v.setOut d .b).ddrb = v.ddrb := rfl
@[simp] theorem Via.setOut_b_pcr (v : Via) (d : Byte) : (v.setOut d .b).pcr = v.pcr := rfl
@[simp] theorem Via.setOut_b_portA (v : Via) (d : Byte) : (v.setOut d .b).portA = v.portA := rfl
@[simp] theorem Via.setOut_b_portB (v : Via) (d : Byte) : (v.setOut d .b).portB = v.portB := rfl
@[simp] theorem Via.setIn_a_ora (v : Via) (d : Byte) : (v.setIn d .a).ora = v.ora := rfl
@[simp] theorem Via.setIn_a_orb (v : Via) (d : Byte) : (v.setIn d .a).orb = v.orb := rfl
@[simp] theorem Via.setIn_a_ira (v : Via) (d : Byte) : (v.setIn d .a).ira = d := rfl
@[simp] theorem Via.setIn_a_irb (v : Via) (d : Byte) : (v.setIn d .a).irb = v.irb := rfl
@[simp] theorem Via.setIn_a_ddra (v : Via) (d : Byte) : (v.setIn d .a).ddra = v.ddra := rfl
@[simp] theorem Via.setIn_a_ddrb (v : Via) (d : Byte) : (v.setIn d .a).ddrb = v.ddrb := rfl
@[simp] theorem Via.setIn_a_pcr (v : Via) (d : Byte) : (v.setIn d .a).pcr = v.pcr := rfl
@[simp] theorem Via.setIn_a_portA (v : Via) (d : Byte) : (v.setIn d .a).portA = v.portA := rfl
@[simp] theorem Via.setIn_a_portB (v : Via) (d : Byte) : (v.setIn d .a).portB = v.portB := rfl
@[simp] theorem Via.setIn_b_ora (v : Via) (d : Byte) : (v.setIn d .b).ora = v.ora := rfl
@[simp] theorem Via.setIn_b_orb (v : Via) (d : Byte) : (v.setIn d .b).orb = v.orb := rfl
@[simp] theorem Via.setIn_b_ira (v : Via) (d : Byte) : (v.setIn d .b).ira = v.ira := rfl
@[simp] theorem Via.setIn_b_irb (v : Via) (d : Byte) : (v.setIn d .b).irb = d := rfl
@[simp] theorem Via.setIn_b_ddra (v : Via) (d : Byte) : (v.setIn d .b).ddra = v.ddra := rfl
@[simp] theorem Via.setIn_b_ddrb (v : Via) (d : Byte) : (v.setIn d .b).ddrb = v.ddrb := rfl
@[simp] theorem Via.setIn_b_pcr (v : Via) (d : Byte) : (v.setIn d .b).pcr = v.pcr := rfl
@[simp] theorem Via.setIn_b_portA (v : Via) (d : Byte) : (v.setIn d .b).portA = v.portA := rfl
@[simp] theorem Via.setIn_b_portB (v : Via) (d : Byte) : (v.setIn d .b).portB = v.portB := rfl
@[simp] theorem Via.setDir_a_ora (v : Via) (d : Byte) : (v.setDir d .a).ora = v.ora := rfl
@[simp] theorem Via.setDir_a_orb (v : Via) (d : Byte) : (v.setDir d .a).orb = v.orb := rfl
@[simp] theorem Via.setDir_a_ira (v : Via) (d : Byte) : (v.setDir d .a).ira = v.ira := rfl
@[simp] theorem Via.setDir_a_irb (v : Via) (d : Byte) : (v.setDir d .a).irb = v.irb := rfl
@[simp] theorem Via.setDir_a_ddra (v : Via) (d : Byte) : (v.setDir d .a).ddra = d := rfl
@[simp] theorem Via.setDir_a_ddrb (v : Via) (d : Byte) : (v.setDir d .a).ddrb = v.ddrb := rfl
@[simp] theorem Via.setDir_a_pcr (v : Via) (d : Byte) : (v.setDir d .a).pcr = v.pcr := rfl
@[simp] theorem Via.setDir_a_portA (v : Via) (d : Byte) : (v.setDir d .a).portA = v.portA := rfl
@[simp] theorem Via.setDir_a_portB (v : Via) (d : Byte) : (v.setDir d .a).portB = v.portB := rfl
@[simp] theorem Via.setDir_b_ora (v : Via) (d : Byte) : (v.setDir d .b).ora = v.ora := rfl
@[simp] theorem Via.setDir_b_orb (v : Via) (d : Byte) : (v.setDir d .b).orb = v.orb := rfl
@[simp] theorem Via.setDir_b_ira (v : Via) (d : Byte) : (v.setDir d .b).ira = v.ira := rfl
@[simp] theorem Via.setDir_b_irb (v : Via) (d : Byte) : (v.setDir d .b).irb = v.irb := rfl
@[simp] theorem Via.setDir_b_ddra (v : Via) (d : Byte) : (v.setDir d .b).ddra = v.ddra := rfl
@[simp] theorem Via.setDir_b_ddrb (v : Via) (d : Byte) : (v.setDir d .b).ddrb = d := rfl
@[simp] theorem Via.setDir_b_pcr (v : Via) (d : Byte) : (v.setDir d .b).pcr = v.pcr := rfl
@[simp] theorem Via.setDir_b_portA (v : Via) (d : Byte) : (v.setDir d .b).portA = v.portA := rfl
@[simp] theorem Via.setDir_b_portB (v : Via) (d : Byte) : (v.setDir d .b).portB = v.portB := rfl
@[simp] theorem Via.setPcr_ora (v : Via) (d : Byte) : (v.setPcr d).ora = v.ora := rfl
@[simp] theorem Via.setPcr_orb (v : Via) (d : Byte) : (v.setPcr d).orb = v.orb := rfl
@[simp] theorem Via.setPcr_ira (v : Via) (d : Byte) : (v.setPcr d).ira = v.ira := rfl
@[simp] theorem Via.setPcr_irb (v : Via) (d : Byte) : (v.setPcr d).irb = v.irb := rfl
@[simp] theorem Via.setPcr_ddra (v : Via) (d : Byte) : (v.setPcr d).ddra = v.ddra := rfl
@[simp] theorem Via.setPcr_ddrb (v : Via) (d : Byte) : (v.setPcr d).ddrb = v.ddrb := rfl
@[simp] theorem Via.setPcr_pcr (v : Via) (d : Byte) : (v.setPcr d).pcr = d := rfl
@[simp] theorem Via.setPcr_portA (v : Via) (d : Byte) : (v.setPcr d).portA = v.portA := rfl
@[simp] theorem Via.setPcr_portB (v : Via) (d : Byte) : (v.setPcr d).portB = v.portB := rfl
@[simp] theorem Via.plug_a_ora (v : Via) (p : Peripheral) : (v.plug p .a).ora = v.ora := rfl
@[simp] theorem Via.plug_a_orb (v : Via) (p : Peripheral) : (v.plug p .a).orb = v.orb := rfl
@[simp] theorem Via.plug_a_ira (v : Via) (p : Peripheral) : (v.plug p .a).ira = v.ira := rfl
@[simp] theorem Via.plug_a_irb (v : Via) (p : Peripheral) : (v.plug p .a).irb = v.irb := rfl
@[simp] theorem Via.plug_a_ddra (v : Via) (p : Peripheral) : (v.plug p .a).ddra = v.ddra := rfl
@[simp] theorem Via.plug_a_ddrb (v : Via) (p : Peripheral) : (v.plug p .a).ddrb = v.ddrb := rfl
@[simp] theorem Via.plug_a_pcr (v : Via) (p : Peripheral) : (v.plug p .a).pcr = v.pcr := rfl
@[simp] theorem Via.plug_a_portA (v : Via) (p : Peripheral) : (v.plug p .a).portA = v.portA ++ [p] := rfl
@[simp] theorem Via.plug_a_portB (v : Via) (p : Peripheral) : (v.plug p .a).portB = v.portB := rfl
@[simp] theorem Via.plug_b_ora (v : Via) (p : Peripheral) : (v.plug p .b).ora = v.ora := rfl
@[simp] theorem Via.plug_b_orb (v : Via) (p : Peripheral) : (v.plug p .b).orb = v.orb := rfl
@[simp] theorem Via.plug_b_ira (v : Via) (p : Peripheral) : (v.plug p .b).ira = v.ira := rfl
@[simp] theorem Via.plug_b_irb (v : Via) (p : Peripheral) : (v.plug p .b).irb = v.irb := rfl
@[simp] theorem Via.plug_b_ddra (v : Via) (p : Peripheral) : (v.plug p .b).ddra = v.ddra := rfl
@[simp] theorem Via.plug_b_ddrb (v : Via) (p : Peripheral) : (v.plug p .b).ddrb = v.ddrb := rfl
@[simp] theorem Via.plug_b_pcr (v : Via) (p : Peripheral) : (v.plug p .b).pcr = v.pcr := rfl
@[simp] theorem Via.plug_b_portA (v : Via) (p : Peripheral) : (v.plug p .b).portA = v.portA := rfl
@[simp] theorem Via.plug_b_portB (v : Via) (p : Peripheral) : (v.plug p .b).portB = v.portB ++ [p] := rfl
@[simp] theorem Via.zeroed_ora (v : Via) : v.zeroed.ora = 0x00 := rfl
@[simp] theorem Via.zeroed_orb (v : Via) : v.zeroed.orb = 0x00 := rfl
@[simp] theorem Via.zeroed_ira (v : Via) : v.zeroed.ira = 0x00 := rfl
@[simp] theorem Via.zeroed_irb (v : Via) : v.zeroed.irb = 0x00 := rfl
@[simp] theorem Via.zeroed_ddra (v : Via) : v.zeroed.ddra = 0x00 := rfl
@[simp] theorem Via.zeroed_ddrb (v : Via) : v.zeroed.ddrb = 0x00 := rfl
@[simp] theorem Via.zeroed_pcr (v : Via) : v.zeroed.pcr = 0x00 := rfl
@[simp] theorem Via.zeroed_portA (v : Via) : v.zeroed.portA = v.portA := rfl
@[simp] theorem Via.zeroed_portB (v : Via) : v.zeroed.portB = v.portB := rfl
@[simp] theorem World.emit_reads (w : World) (e : Event) : (w.emit e).reads = w.reads := rfl
@[simp] theorem World.emit_readCount (w : World) (e : Event) : (w.emit e).readCount = w.readCount := rfl
@[simp] theorem World.emit_reports (w : World) (e : Event) : (w.emit e).reports = w.reports := rfl
@[simp] theorem World.emit_reportCount (w : World) (e : Event) : (w.emit e).reportCount = w.reportCount := rfl
@[simp] theorem World.emit_trace (w : World) (e : Event) : (w.emit e).trace = w.trace ++ [e] := rfl
@[simp] theorem World.afterRead_reads (w : World) : w.afterRead.reads = w.reads.tail := rfl
@[simp] theorem World.afterRead_readCount (w : World) : w.afterRead.readCount = w.readCount + 1 := rfl
@[simp] theorem World.afterRead_reports (w : World) : w.afterRead.reports = w.reports := rfl
@[simp] theorem World.afterRead_reportCount (w : World) : w.afterRead.reportCount = w.reportCount := rfl
@[simp] theorem World.afterRead_trace (w : World) : w.afterRead.trace = w.trace := rfl
@[simp] theorem World.afterReport_reads (w : World) : w.afterReport.reads = w.reads := rfl
@[simp] theorem World.afterReport_readCount (w : World) : w.afterReport.readCount = w.readCount := rfl
@[simp] theorem World.afterReport_reports (w : World) : w.afterReport.reports = w.reports.tail := rfl
@[simp] theorem World.afterReport_reportCount (w : World) : w.afterReport.reportCount = w.reportCount + 1 := rfl
@[simp] theorem World.afterReport_trace (w : World) : w.afterReport.trace = w.trace := rfl

end Sys2Proof.Machine
end

