-- ==== Sys2Proof/Laws/Ops.lean ====
section
/-! SUPPORT. For each shared operation one lemma that says everything it can do; the loops over peripherals in
closed form. -/

namespace Sys2Proof.Machine

/-! ## Admission -/

theorem beforeShutdown_eq {s : State} (h : s.phase ≠ .shutDown) (k : State → Result) :
    beforeShutdown s k = k s := by
  unfold beforeShutdown
  cases hp : s.phase <;> simp_all

theorem beforeShutdown_next {s t : State} {k : State → Result} (h : beforeShutdown s k = .next t) :
    s.phase ≠ .shutDown ∧ k s = .next t := by
  unfold beforeShutdown at h
  cases hp : s.phase <;> simp_all

/-- A host event of a machine that admits operations is its body. -/
theorem hostEvent_ready {s : State} (h : s.Ready) (k : State → Result) : hostEvent s k = k s := by
  simp [hostEvent, h.1, beforeShutdown_eq h.2]

/-- While halted a host event has no step (R271). -/
theorem hostEvent_halted {s : State} {f : FaultRecord} (h : s.halt = some f) (k : State → Result) :
    hostEvent s k = .fault (.halted f) := by
  simp [hostEvent, h]

theorem hostEvent_next {s t : State} {k : State → Result} (h : hostEvent s k = .next t) :
    s.Ready ∧ k s = .next t := by
  unfold hostEvent at h
  cases hh : s.halt with
  | some f => simp [hh] at h
  | none =>
    simp only [hh] at h
    obtain ⟨h1, h2⟩ := beforeShutdown_next h
    exact ⟨⟨hh, h1⟩, h2⟩

/-- A transaction of a machine that admits operations is its body, in the running phase. -/
theorem transaction_ready {s : State} (h : s.Ready) (k : State → Result) :
    transaction s k = k (s.withPhase .running) := hostEvent_ready h _

theorem transaction_halted {s : State} {f : FaultRecord} (h : s.halt = some f) (k : State → Result) :
    transaction s k = .fault (.halted f) := hostEvent_halted h _

theorem transaction_next {s t : State} {k : State → Result} (h : transaction s k = .next t) :
    s.Ready ∧ k (s.withPhase .running) = .next t := hostEvent_next h

theorem beforeFirstTransaction_next {s t : State} {k : State → Result}
    (h : beforeFirstTransaction s k = .next t) : s.phase = .configuration ∧ k s = .next t := by
  unfold beforeFirstTransaction at h
  cases hp : s.phase <;> simp_all

/-- An operation depends on its body at the state it runs in, and on nothing else of the body. -/
theorem hostEvent_congr {s : State} {k k' : State → Result} (h : k s = k' s) :
    hostEvent s k = hostEvent s k' := by
  unfold hostEvent beforeShutdown
  simp only [h]

theorem transaction_congr {s : State} {k k' : State → Result}
    (h : k (s.withPhase .running) = k' (s.withPhase .running)) : transaction s k = transaction s k' :=
  hostEvent_congr h

/-! ## The loops over peripherals -/

theorem World.readsNext_succ (w : World) (n : Nat) :
    w.readsNext (n + 1) = w.nextRead :: w.afterRead.readsNext n := by
  simp only [World.readsNext, List.range_succ_eq_map, List.map_cons, List.map_map]
  refine congrArg₂ List.cons ?_ (List.map_congr_left fun k _ => ?_)
  · cases h : w.reads <;> simp [World.readAt, World.nextRead, h]
  · cases h : w.reads <;>
      simp [World.readAt, World.afterRead, h, Nat.add_comm, Nat.add_left_comm]

theorem World.reportsNext_succ (w : World) (n : Nat) :
    w.reportsNext (n + 1) = w.nextReport :: w.afterReport.reportsNext n := by
  simp only [World.reportsNext, List.range_succ_eq_map, List.map_cons, List.map_map]
  refine congrArg₂ List.cons ?_ (List.map_congr_left fun k _ => ?_)
  · cases h : w.reports <;> simp [World.reportAt, World.nextReport, h]
  · cases h : w.reports <;>
      simp [World.reportAt, World.afterReport, h, Nat.add_comm, Nat.add_left_comm]

@[simp] theorem World.readsNext_emit (w : World) (e : Event) (n : Nat) :
    (w.emit e).readsNext n = w.readsNext n := rfl

@[simp] theorem World.reportsNext_emit (w : World) (e : Event) (n : Nat) :
    (w.emit e).reportsNext n = w.reportsNext n := rfl

@[simp] theorem World.readsNext_length (w : World) (n : Nat) : (w.readsNext n).length = n := by
  simp [World.readsNext]

@[simp] theorem World.reportsNext_length (w : World) (n : Nat) : (w.reportsNext n).length = n := by
  simp [World.reportsNext]

/-- What `inputLoop` composes and calls, from any index and accumulator (R200). -/
theorem inputLoop_eq (port : Port) (ps : List Peripheral) (i : Nat) (acc : Byte) (w : World) :
    inputLoop port i ps acc w =
      ((List.zipWith (fun p b => b &&& p.mask) ps (w.readsNext ps.length)).foldl (fun x y => x ||| y) acc,
        w.afterReads ps.length ((w.readsNext ps.length).mapIdx fun k b => .pRead port (i + k) b)) := by
  induction ps generalizing i acc w with
  | nil => simp [inputLoop, World.afterReads, World.readsNext]
  | cons p ps ih =>
    simp only [inputLoop, ih, List.length_cons, World.readsNext_succ, World.readsNext_emit,
      List.zipWith_cons_cons, List.foldl_cons, List.mapIdx_cons, Peripheral.wired]
    simp [World.afterReads, World.emit, World.afterRead, Nat.add_comm, Nat.add_left_comm]

/-- What `fanoutLoop` calls, from any index (R201). -/
theorem fanoutLoop_eq (port : Port) (m : Byte) (ps : List Peripheral) (i : Nat) (w : World) :
    fanoutLoop port m i ps w =
      w.afterEvents (ps.mapIdx fun k p => .pWrite port (i + k) (m &&& p.mask)) := by
  induction ps generalizing i w with
  | nil => simp [fanoutLoop, World.afterEvents]
  | cons p ps ih =>
    simp [fanoutLoop, ih, World.afterEvents, World.emit, Peripheral.wired, List.mapIdx_cons,
      Nat.add_comm, Nat.add_left_comm]

/-- What `shutdownLoop` calls, from any index (R198). -/
theorem shutdownLoop_eq (port : Port) (ps : List Peripheral) (i : Nat) (w : World) :
    shutdownLoop port i ps w =
      w.afterReports ps.length
        ((w.reportsNext ps.length).mapIdx fun k ok => .pShutdown port (i + k) ok) := by
  induction ps generalizing i w with
  | nil => simp [shutdownLoop, World.afterReports, World.reportsNext]
  | cons p ps ih =>
    simp only [shutdownLoop, ih, List.length_cons, World.reportsNext_succ, World.reportsNext_emit,
      List.mapIdx_cons]
    simp [World.afterReports, World.emit, World.afterReport, Nat.add_comm, Nat.add_left_comm]

theorem diagLine_eq (p : Params) (port : Port) (d : Byte) (w : World) :
    diagLine p port d w = w.afterEvents (diagLines p port d) := by
  by_cases h : p.diagBinary = true ∨ p.diagAscii = true
  · simp [diagLine, diagLines, World.afterEvents, World.emit, h]
  · simp [diagLine, diagLines, World.afterEvents, h]

theorem portInput_eq (port : Port) (s : State) :
    portInput port s =
      (orOfMasked (s.via.peripherals port) (s.portBytes port),
        s.world.afterReads (s.via.peripherals port).length (readCalls port (s.portBytes port))) := by
  simp [portInput, inputLoop_eq, orOfMasked, State.portBytes, readCalls]

theorem portWriteWorld_eq (port : Port) (d : Byte) (s : State) :
    portWriteWorld port d s =
      s.world.afterEvents (diagLines s.params port d
        ++ writeCalls port (d &&& s.via.dirReg port) (s.via.peripherals port)) := by
  simp [portWriteWorld, fanoutLoop_eq, diagLine_eq, World.afterEvents, writeCalls, driven]

theorem shutdownWorld_eq (s : State) :
    shutdownWorld s =
      (s.world.afterReports s.via.portA.length
          (shutdownCalls .a (s.world.reportsNext s.via.portA.length))).afterReports s.via.portB.length
        (shutdownCalls .b ((s.world.afterReports s.via.portA.length
          (shutdownCalls .a (s.world.reportsNext s.via.portA.length))).reportsNext s.via.portB.length)) := by
  simp [shutdownWorld, shutdownLoop_eq, shutdownCalls]

/-! ## The devices -/

theorem ramRead_in {off : Addr} {s : State} (h : off.toNat < s.params.ramSize) :
    ramRead off s = .next (s.withAnswer (.byte (Memory.read s.ram off.toNat))) := if_pos h

theorem ramWrite_in {off : Addr} {s : State} (h : off.toNat < s.params.ramSize) (d : Byte) :
    ramWrite off d s = .next ((s.withRam (Memory.write s.ram off.toNat d)).withAnswer .none) := if_pos h

theorem romRead_in {off : Addr} {s : State} (h : off.toNat < s.params.romSize) :
    romRead off s = .next (s.withAnswer (.byte (Memory.read s.params.romImage off.toNat))) := if_pos h

/-- If a RAM read answers a next state, the offset is the RAM's and the answer is its byte. -/
theorem ramRead_next {off : Addr} {s t : State} (h : ramRead off s = .next t) :
    off.toNat < s.params.ramSize ∧ t = s.withAnswer (.byte (Memory.read s.ram off.toNat)) := by
  unfold ramRead at h
  split at h
  · next hlt => exact ⟨hlt, (Host.Outcome.next.inj h).symm⟩
  · exact absurd h (by simp)

/-- If a RAM write answers a next state, the offset is the RAM's and its one byte is stored. -/
theorem ramWrite_next {off : Addr} {d : Byte} {s t : State} (h : ramWrite off d s = .next t) :
    off.toNat < s.params.ramSize
      ∧ t = (s.withRam (Memory.write s.ram off.toNat d)).withAnswer .none := by
  unfold ramWrite at h
  split at h
  · next hlt => exact ⟨hlt, (Host.Outcome.next.inj h).symm⟩
  · exact absurd h (by simp)

/-- If a ROM read answers a next state, the offset is the ROM's and the answer is the image's byte. -/
theorem romRead_next {off : Addr} {s t : State} (h : romRead off s = .next t) :
    off.toNat < s.params.romSize ∧ t = s.withAnswer (.byte (Memory.read s.params.romImage off.toNat)) := by
  unfold romRead at h
  split at h
  · next hlt => exact ⟨hlt, (Host.Outcome.next.inj h).symm⟩
  · exact absurd h (by simp)

/-! ## BUS_ATTACH -/

/-- The checks of BUS_ATTACH pass exactly for a range within the space that shares no address with an attachment
of the list (R131). -/
theorem attachFault_none {m : AddressMap} {b : Addr} {n : Nat} :
    attachFault m b n = none ↔
      (1 ≤ n ∧ b.toNat + n ≤ 0x10000) ∧ ∀ t ∈ m, rangesOverlap b.toNat n t.base.toNat t.size = false := by
  unfold attachFault
  split
  · next h => simp; omega
  · next h => simp; omega

/-- The record the checks of BUS_ATTACH give: a range not within the space, or an attachment of the list that shares
an address (R131). -/
theorem attachFault_some {m : AddressMap} {b : Addr} {n : Nat} {f : FaultRecord} (h : attachFault m b n = some f) :
    (f = .configRange b n ∧ (n = 0 ∨ 0x10000 < b.toNat + n))
      ∨ ∃ u ∈ m, f = .configOverlap b n u.base u.size ∧ rangesOverlap b.toNat n u.base.toNat u.size = true := by
  unfold attachFault at h
  split at h
  · next hr => exact Or.inl ⟨(Option.some.inj h).symm, hr⟩
  · obtain ⟨u, hu, rfl⟩ := Option.map_eq_some_iff.mp h
    exact Or.inr ⟨u, List.mem_of_find?_eq_some hu, rfl, by simpa using List.find?_some hu⟩

/-- If BUS_ATTACH's body answers a next state, it appended the range or latched the record of its checks. -/
theorem attachDevice_next {dev : Device} {label : String} {b : Addr} {s t : State}
    (h : attachDevice dev label b s = .next t) :
    (attachFault s.att b (dev.size s.params) = none
        ∧ t = (s.withAtt (s.att ++ [⟨b, dev.size s.params, dev, label⟩])).withAnswer .none)
      ∨ ∃ f, attachFault s.att b (dev.size s.params) = some f ∧ t = s.raise f := by
  unfold attachDevice at h
  split at h
  · next f hf => exact Or.inr ⟨f, hf, (Host.Outcome.next.inj h).symm⟩
  · next hf => exact Or.inl ⟨hf, (Host.Outcome.next.inj h).symm⟩

/-! ## Fault entry, ROM writes, host events on the VIA -/

/-- Fault entry of a machine that is not halted (R270). -/
theorem State.raise_eq {s : State} (h : s.halt = none) (f : FaultRecord) :
    s.raise f = { s with halt := some f, answer := .none } := by
  simp [State.raise, State.withHalt, State.withAnswer, h]

/-- If a ROM write answers a next state, it is the policy's (R140, R264). -/
theorem romWrite_next {a : Addr} {d : Byte} {s t : State} (h : romWrite a d s = .next t) :
    (s.params.romWritePolicy = .fault ∧ t = s.raise (.romWrite a d))
      ∨ (s.params.romWritePolicy = .ignore ∧ t = s.withAnswer .none) := by
  unfold romWrite at h
  split at h
  · next hp => exact Or.inl ⟨hp, (Host.Outcome.next.inj h).symm⟩
  · next hp => exact Or.inr ⟨hp, (Host.Outcome.next.inj h).symm⟩

/-- If attaching a peripheral answers a next state, it was on no port and is appended (R174, R175). -/
theorem attachPeripheral_next {port : Port} {p : Peripheral} {s t : State}
    (h : attachPeripheral port p s = .next t) :
    s.via.attached p.id = false
      ∧ t = ((s.withVia (s.via.plug p port)).withWorld
          (s.world.emit (.attachLog port p.name p.mask))).withAnswer .none := by
  unfold attachPeripheral at h
  split at h
  · exact absurd h (by simp)
  · next hn => exact ⟨by simpa using hn, (Host.Outcome.next.inj h).symm⟩

/-- If a control-mode query answers a next state, the offset is admitted and only the answer is new (R172). -/
theorem control1_next {n : Nat} {s t : State} (h : control1 n s = .next t) :
    controlOffsetOk n = true ∧ t = s.withAnswer (.mode1 (control1Mode s.via.pcr n)) := by
  unfold control1 at h
  split at h
  · next hn => exact ⟨hn, (Host.Outcome.next.inj h).symm⟩
  · exact absurd h (by simp)

/-- The same for the three-bit query (R173). -/
theorem control2_next {n : Nat} {s t : State} (h : control2 n s = .next t) :
    controlOffsetOk n = true ∧ t = s.withAnswer (.mode3 (control2Mode s.via.pcr n)) := by
  unfold control2 at h
  split at h
  · next hn => exact ⟨hn, (Host.Outcome.next.inj h).symm⟩
  · exact absurd h (by simp)

/-! ## The Address Bus -/

/-- A bus read is the owner's read at the local offset, or the unmapped fault (R135). -/
theorem busRead_owned {a : Addr} {s : State} {t : Attachment} (h : s.att.owner a = some t) :
    busRead a s = devRead t.dev (t.offset a) s := by
  simp [busRead, h]

theorem busRead_unowned {a : Addr} {s : State} (h : s.att.owner a = none) :
    busRead a s = unmapped a .read s := by
  simp [busRead, h]

/-- A bus write is the owner's write at the local offset, or the unmapped fault (R136). -/
theorem busWrite_owned {a : Addr} {d : Byte} {s : State} {t : Attachment} (h : s.att.owner a = some t) :
    busWrite a d s = devWrite t.dev a (t.offset a) d s := by
  simp [busWrite, h]

theorem busWrite_unowned {a : Addr} {d : Byte} {s : State} (h : s.att.owner a = none) :
    busWrite a d s = unmapped a .write s := by
  simp [busWrite, h]

/-! ## Steps and runs -/

/-- If a step answers a next state, nothing was issued and nothing changed, or the decoded operation ran. -/
theorem step_next {s t : State} (h : step s = .next t) :
    (s.ops = [] ∧ t = s)
      ∨ ∃ r rest i, s.ops = r :: rest ∧ decode s.att r = .ok i ∧ exec i (s.withOps rest) = .next t := by
  unfold step fetch at h
  cases ho : s.ops with
  | nil => simp only [ho] at h; exact Or.inl ⟨rfl, (Host.Outcome.next.inj h).symm⟩
  | cons r rest =>
    simp only [ho] at h
    cases hd : decode s.att r with
    | error e => simp [hd] at h
    | ok i => simp only [hd] at h; exact Or.inr ⟨r, rest, i, rfl, hd, h⟩

/-- A run of one step more, where the first step answers a next state. -/
theorem run_succ_of_next (M : Host.Core) (k : Nat) {s t : M.State} (h : M.step s = .next t) :
    M.run (k + 1) s = M.run k t := by
  simp [Host.Core.run, h]

/-- The memory of the machine after reset has the canonical form. -/
theorem reset_memory_wf : Memory.wf State.reset.ram := by decide

end Sys2Proof.Machine
end

