-- ==== Sys2Proof/Laws/PerInstr.lean ====
section
/-! SUPPORT. One fact about the encoding of every operation, per constructor of `Instr`: a bus transaction is encoded
as a BUS word (R102), a host event as its code with its operands (R103), and neither as the other. -/

namespace Sys2Proof.Laws

/-- What an operation is encoded as, on any map: a BUS word exactly if it is a bus transaction (R17, R102, R103). -/
def Encoding.Statement (i : Instr) : Prop :=
  ∀ (m : AddressMap) (r : Request), encode m i = some r → (i.isTransaction = true ↔ ∃ w, r = .bus w)

namespace Encoding

/-- What is encoded at a device's offset is a BUS word. -/
theorem of_encodeAt {m : AddressMap} {dev : Device} {read : Bool} {off : Addr} {d : Byte} {r : Request}
    (h : encodeAt m dev read off d = some r) : ∃ w, r = .bus w := by
  obtain ⟨b, -, rfl⟩ := Option.map_eq_some_iff.mp h
  exact ⟨_, rfl⟩

theorem busRd (addr : Addr) : Statement (.busRd addr) :=
  fun _ _ h => ⟨fun _ => ⟨_, (Option.some.inj h).symm⟩, fun _ => rfl⟩
theorem busWr (addr : Addr) (data : Byte) : Statement (.busWr addr data) :=
  fun _ _ h => ⟨fun _ => ⟨_, (Option.some.inj h).symm⟩, fun _ => rfl⟩
theorem ramRd (off : Addr) : Statement (.ramRd off) :=
  fun _ _ h => ⟨fun _ => of_encodeAt h, fun _ => rfl⟩
theorem ramWr (off : Addr) (data : Byte) : Statement (.ramWr off data) :=
  fun _ _ h => ⟨fun _ => of_encodeAt h, fun _ => rfl⟩
theorem wrOrb (data : Byte) : Statement (.wrOrb data) :=
  fun _ _ h => ⟨fun _ => of_encodeAt h, fun _ => rfl⟩
theorem rdIrb : Statement .rdIrb :=
  fun _ _ h => ⟨fun _ => of_encodeAt h, fun _ => rfl⟩
theorem wrOra (data : Byte) : Statement (.wrOra data) :=
  fun _ _ h => ⟨fun _ => of_encodeAt h, fun _ => rfl⟩
theorem rdIra : Statement .rdIra :=
  fun _ _ h => ⟨fun _ => of_encodeAt h, fun _ => rfl⟩
theorem wrDdrb (data : Byte) : Statement (.wrDdrb data) :=
  fun _ _ h => ⟨fun _ => of_encodeAt h, fun _ => rfl⟩
theorem rdDdrb : Statement .rdDdrb :=
  fun _ _ h => ⟨fun _ => of_encodeAt h, fun _ => rfl⟩
theorem wrDdra (data : Byte) : Statement (.wrDdra data) :=
  fun _ _ h => ⟨fun _ => of_encodeAt h, fun _ => rfl⟩
theorem rdDdra : Statement .rdDdra :=
  fun _ _ h => ⟨fun _ => of_encodeAt h, fun _ => rfl⟩
theorem wrUnh4 (data : Byte) : Statement (.wrUnh4 data) :=
  fun _ _ h => ⟨fun _ => of_encodeAt h, fun _ => rfl⟩
theorem rdUnh4 : Statement .rdUnh4 :=
  fun _ _ h => ⟨fun _ => of_encodeAt h, fun _ => rfl⟩
theorem wrUnh5 (data : Byte) : Statement (.wrUnh5 data) :=
  fun _ _ h => ⟨fun _ => of_encodeAt h, fun _ => rfl⟩
theorem rdUnh5 : Statement .rdUnh5 :=
  fun _ _ h => ⟨fun _ => of_encodeAt h, fun _ => rfl⟩
theorem wrUnh6 (data : Byte) : Statement (.wrUnh6 data) :=
  fun _ _ h => ⟨fun _ => of_encodeAt h, fun _ => rfl⟩
theorem rdUnh6 : Statement .rdUnh6 :=
  fun _ _ h => ⟨fun _ => of_encodeAt h, fun _ => rfl⟩
theorem wrUnh7 (data : Byte) : Statement (.wrUnh7 data) :=
  fun _ _ h => ⟨fun _ => of_encodeAt h, fun _ => rfl⟩
theorem rdUnh7 : Statement .rdUnh7 :=
  fun _ _ h => ⟨fun _ => of_encodeAt h, fun _ => rfl⟩
theorem wrUnh8 (data : Byte) : Statement (.wrUnh8 data) :=
  fun _ _ h => ⟨fun _ => of_encodeAt h, fun _ => rfl⟩
theorem rdUnh8 : Statement .rdUnh8 :=
  fun _ _ h => ⟨fun _ => of_encodeAt h, fun _ => rfl⟩
theorem wrUnh9 (data : Byte) : Statement (.wrUnh9 data) :=
  fun _ _ h => ⟨fun _ => of_encodeAt h, fun _ => rfl⟩
theorem rdUnh9 : Statement .rdUnh9 :=
  fun _ _ h => ⟨fun _ => of_encodeAt h, fun _ => rfl⟩
theorem wrUnhA (data : Byte) : Statement (.wrUnhA data) :=
  fun _ _ h => ⟨fun _ => of_encodeAt h, fun _ => rfl⟩
theorem rdUnhA : Statement .rdUnhA :=
  fun _ _ h => ⟨fun _ => of_encodeAt h, fun _ => rfl⟩
theorem wrUnhB (data : Byte) : Statement (.wrUnhB data) :=
  fun _ _ h => ⟨fun _ => of_encodeAt h, fun _ => rfl⟩
theorem rdUnhB : Statement .rdUnhB :=
  fun _ _ h => ⟨fun _ => of_encodeAt h, fun _ => rfl⟩
theorem wrPcr (data : Byte) : Statement (.wrPcr data) :=
  fun _ _ h => ⟨fun _ => of_encodeAt h, fun _ => rfl⟩
theorem rdPcr : Statement .rdPcr :=
  fun _ _ h => ⟨fun _ => of_encodeAt h, fun _ => rfl⟩
theorem wrUnhD (data : Byte) : Statement (.wrUnhD data) :=
  fun _ _ h => ⟨fun _ => of_encodeAt h, fun _ => rfl⟩
theorem rdUnhD : Statement .rdUnhD :=
  fun _ _ h => ⟨fun _ => of_encodeAt h, fun _ => rfl⟩
theorem wrUnhE (data : Byte) : Statement (.wrUnhE data) :=
  fun _ _ h => ⟨fun _ => of_encodeAt h, fun _ => rfl⟩
theorem rdUnhE : Statement .rdUnhE :=
  fun _ _ h => ⟨fun _ => of_encodeAt h, fun _ => rfl⟩
theorem wrUnhF (data : Byte) : Statement (.wrUnhF data) :=
  fun _ _ h => ⟨fun _ => of_encodeAt h, fun _ => rfl⟩
theorem rdUnhF : Statement .rdUnhF :=
  fun _ _ h => ⟨fun _ => of_encodeAt h, fun _ => rfl⟩
theorem romRd (off : Addr) : Statement (.romRd off) :=
  fun _ _ h => ⟨fun _ => of_encodeAt h, fun _ => rfl⟩
theorem romWr (addr : Addr) (data : Byte) : Statement (.romWr addr data) :=
  fun _ _ h => ⟨fun _ => ⟨_, (Option.some.inj h).symm⟩, fun _ => rfl⟩
theorem unmappedRd (addr : Addr) : Statement (.unmappedRd addr) :=
  fun _ _ h => ⟨fun _ => ⟨_, (Option.some.inj h).symm⟩, fun _ => rfl⟩
theorem unmappedWr (addr : Addr) (data : Byte) : Statement (.unmappedWr addr data) :=
  fun _ _ h => ⟨fun _ => ⟨_, (Option.some.inj h).symm⟩, fun _ => rfl⟩
theorem busAttach (dev : Device) (label : String) (base : Addr) : Statement (.busAttach dev label base) :=
  fun _ _ h => by cases Option.some.inj h; simp [Instr.isTransaction]
theorem viaAttachA (p : Peripheral) : Statement (.viaAttachA p) :=
  fun _ _ h => by cases Option.some.inj h; simp [Instr.isTransaction]
theorem viaAttachB (p : Peripheral) : Statement (.viaAttachB p) :=
  fun _ _ h => by cases Option.some.inj h; simp [Instr.isTransaction]
theorem viaReset : Statement .viaReset :=
  fun _ _ h => by cases Option.some.inj h; simp [Instr.isTransaction]
theorem viaShutdown : Statement .viaShutdown :=
  fun _ _ h => by cases Option.some.inj h; simp [Instr.isTransaction]
theorem ctrl1Mode (offset : Nat) : Statement (.ctrl1Mode offset) :=
  fun _ _ h => by cases Option.some.inj h; simp [Instr.isTransaction]
theorem ctrl2Mode (offset : Nat) : Statement (.ctrl2Mode offset) :=
  fun _ _ h => by cases Option.some.inj h; simp [Instr.isTransaction]
theorem ramSnapshot : Statement .ramSnapshot :=
  fun _ _ h => by cases Option.some.inj h; simp [Instr.isTransaction]

end Encoding

end Sys2Proof.Laws
end

