-- ==== Sys2Proof/Tests/Slice0.lean ====
section
/-! SUPPORT. The model's own tests. Expected values come from the spec: the words from 30_encoding R100 to R103 and
opcode_table.json, the results from the vectors S7, S8 and T1 to T15 of 95_test_vectors. The theorems
test_witness_… show, for each statement of Certificates/Slice0/Obligations.lean that has hypotheses, a state and
operands that meet them. -/

namespace Sys2Proof.Tests

open Sys2Proof Sys2Proof.Machine

/-! ## Builders -/

/-- The block in the fixed map, before any transaction, of the sizes of 95_test_vectors. -/
def board : State := { State.construct Params.default [] with att := fixedMap Params.default }

/-- A peripheral by identity and mask. -/
def pad (id : Nat) (mask : Byte) : Peripheral := ⟨id, mask, "p"⟩

/-- The board with these port-A peripherals, registers and bytes to be returned by `Read()`. -/
def portABoard (ps : List Peripheral) (ora ddra : Byte) (reads : List Byte) : State :=
  { board with
    via := { Via.constructed with portA := ps, ora := ora, ddra := ddra }
    world := { World.initial with reads := reads } }

/-- The same for port B. -/
def portBBoard (ps : List Peripheral) (orb ddrb : Byte) (reads : List Byte) : State :=
  { board with
    via := { Via.constructed with portB := ps, orb := orb, ddrb := ddrb }
    world := { World.initial with reads := reads } }

/-- A halted board. -/
def halted : State := { board with halt := some (.unmappedAccess 0x8000 .read), phase := .running }

/-- A board after VIA_SHUTDOWN. -/
def shut : State := { board with phase := .shutDown }

/-- A small machine: four bytes of RAM, two of ROM. -/
def small : Params := { Params.default with ramSize := 4, romSize := 2, romImage := [(1, 0xEA)] }

/-- The small machine in the fixed map, RAM 01 02 03 04. -/
def smallBoard : State :=
  { State.construct small [(0, 0x01), (1, 0x02), (2, 0x03), (3, 0x04)] with att := fixedMap small }

/-- A field of the next state, if there is one. -/
def after {α : Type} (r : Result) (f : State → α) : Option α :=
  match r with
  | .next s => some (f s)
  | .fault _ => none
  | .refused _ => none

/-- The refusal, if the outcome is one. -/
def refusal (r : Result) : Option Refusal :=
  match r with
  | .next _ => none
  | .fault _ => none
  | .refused x => some x

/-- The fault, if the outcome is one. -/
def fault (r : Result) : Option Fault :=
  match r with
  | .next _ => none
  | .fault x => some x
  | .refused _ => none

/-! ## WellFormed: one ill-formed term for each check (R132, R137 to R142, R172, R173) -/

theorem test_wf_ram_offset :
    (Instr.ramRd 0x7FFF).wellFormed Params.default (fixedMap Params.default) = true
      ∧ (Instr.ramRd 0x8000).wellFormed Params.default (fixedMap Params.default) = false
      ∧ (Instr.ramWr 0x8000 0x01).wellFormed Params.default (fixedMap Params.default) = false := by decide

theorem test_wf_rom_offset :
    (Instr.romRd 0x1FFF).wellFormed Params.default (fixedMap Params.default) = true
      ∧ (Instr.romRd 0x2000).wellFormed Params.default (fixedMap Params.default) = false := by decide

theorem test_wf_rom_write_address :
    (Instr.romWr 0xE000 0x00).wellFormed Params.default (fixedMap Params.default) = true
      ∧ (Instr.romWr 0xC000 0x00).wellFormed Params.default (fixedMap Params.default) = false := by decide

theorem test_wf_unmapped_address :
    (Instr.unmappedRd 0x8000).wellFormed Params.default (fixedMap Params.default) = true
      ∧ (Instr.unmappedRd 0x7FFF).wellFormed Params.default (fixedMap Params.default) = false
      ∧ (Instr.unmappedWr 0xFFFF 0x00).wellFormed Params.default (fixedMap Params.default) = false := by decide

theorem test_wf_control_offset :
    (Instr.ctrl1Mode 4).wellFormed Params.default [] = true ∧ (Instr.ctrl1Mode 1).wellFormed Params.default [] = false
      ∧ (Instr.ctrl2Mode 5).wellFormed Params.default [] = false := by decide

/-! ## Decoding: a word for every constructor -/

/-- R100, R102: the writes of the five registers, `0x0C00rdd`. -/
theorem test_decode_register_writes :
    decodeTableWord 32 0x0C0005A = some (.wrOrb 0x5A) ∧ decodeTableWord 32 0x0C0015A = some (.wrOra 0x5A)
      ∧ decodeTableWord 32 0x0C0025A = some (.wrDdrb 0x5A) ∧ decodeTableWord 32 0x0C0035A = some (.wrDdra 0x5A)
      ∧ decodeTableWord 32 0x0C00C5A = some (.wrPcr 0x5A) := by decide

/-- R100, R102: the reads of the five registers, `0x1C00r00`. -/
theorem test_decode_register_reads :
    decodeTableWord 32 0x1C00000 = some .rdIrb ∧ decodeTableWord 32 0x1C00100 = some .rdIra
      ∧ decodeTableWord 32 0x1C00200 = some .rdDdrb ∧ decodeTableWord 32 0x1C00300 = some .rdDdra
      ∧ decodeTableWord 32 0x1C00C00 = some .rdPcr := by decide

/-- T9: the writes of the unhandled register selects. -/
theorem test_decode_unhandled_writes :
    decodeTableWord 32 0x0C00401 = some (.wrUnh4 0x01) ∧ decodeTableWord 32 0x0C00502 = some (.wrUnh5 0x02)
      ∧ decodeTableWord 32 0x0C00603 = some (.wrUnh6 0x03) ∧ decodeTableWord 32 0x0C00704 = some (.wrUnh7 0x04)
      ∧ decodeTableWord 32 0x0C00805 = some (.wrUnh8 0x05) ∧ decodeTableWord 32 0x0C00906 = some (.wrUnh9 0x06)
      ∧ decodeTableWord 32 0x0C00A07 = some (.wrUnhA 0x07) ∧ decodeTableWord 32 0x0C00B08 = some (.wrUnhB 0x08)
      ∧ decodeTableWord 32 0x0C00D09 = some (.wrUnhD 0x09) ∧ decodeTableWord 32 0x0C00E0A = some (.wrUnhE 0x0A)
      ∧ decodeTableWord 32 0x0C00FFF = some (.wrUnhF 0xFF) := by decide

/-- T9: the reads of the unhandled register selects. -/
theorem test_decode_unhandled_reads :
    decodeTableWord 32 0x1C00400 = some .rdUnh4 ∧ decodeTableWord 32 0x1C00500 = some .rdUnh5
      ∧ decodeTableWord 32 0x1C00600 = some .rdUnh6 ∧ decodeTableWord 32 0x1C00700 = some .rdUnh7
      ∧ decodeTableWord 32 0x1C00800 = some .rdUnh8 ∧ decodeTableWord 32 0x1C00900 = some .rdUnh9
      ∧ decodeTableWord 32 0x1C00A00 = some .rdUnhA ∧ decodeTableWord 32 0x1C00B00 = some .rdUnhB
      ∧ decodeTableWord 32 0x1C00D00 = some .rdUnhD ∧ decodeTableWord 32 0x1C00E00 = some .rdUnhE
      ∧ decodeTableWord 32 0x1C00F00 = some .rdUnhF := by decide

/-- R101: the same register selects at the VIA's own interface, `rw` in bit 4. -/
theorem test_decode_via_words :
    decodeVia 0b00000 0x5A = .wrOrb 0x5A ∧ decodeVia 0b10000 0x5A = .rdIrb ∧ decodeVia 0b00011 0x5A = .wrDdra 0x5A
      ∧ decodeVia 0b11100 0x5A = .rdPcr ∧ decodeVia 0b01111 0x5A = .wrUnhF 0x5A
      ∧ decodeVia 0b10100 0x5A = .rdUnh4 := by decide

/-- T6: the RAM, the ROM and the unmapped addresses at the ends of their ranges. -/
theorem test_decode_ranges :
    decodeTableWord 32 0x1000000 = some (.ramRd 0x0000) ∧ decodeTableWord 32 0x07FFF34 = some (.ramWr 0x7FFF 0x34)
      ∧ decodeTableWord 32 0x1800000 = some (.unmappedRd 0x8000)
      ∧ decodeTableWord 32 0x0BFFF00 = some (.unmappedWr 0xBFFF 0x00)
      ∧ decodeTableWord 32 0x1C01000 = some (.unmappedRd 0xC010)
      ∧ decodeTableWord 32 0x0DFFF12 = some (.unmappedWr 0xDFFF 0x12)
      ∧ decodeTableWord 32 0x1FFFF00 = some (.romRd 0x1FFF)
      ∧ decodeTableWord 32 0x0E12300 = some (.romWr 0xE123 0x00) := by decide

/-- R103: the codes of the host events, and a code without the operands it needs. -/
theorem test_decode_events :
    decode [] (.evt 0b000 (.device .via "VIA" 0xC000)) = .ok (.busAttach .via "VIA" 0xC000)
      ∧ decode [] (.evt 0b001 (.peripheral (pad 1 0xF0))) = .ok (.viaAttachA (pad 1 0xF0))
      ∧ decode [] (.evt 0b010 (.peripheral (pad 1 0xF0))) = .ok (.viaAttachB (pad 1 0xF0))
      ∧ decode [] (.evt 0b011 .none) = .ok .viaReset ∧ decode [] (.evt 0b100 .none) = .ok .viaShutdown
      ∧ decode [] (.evt 0b101 (.offset 4)) = .ok (.ctrl1Mode 4)
      ∧ decode [] (.evt 0b110 (.offset 0)) = .ok (.ctrl2Mode 0)
      ∧ decode [] (.evt 0b111 .none) = .ok .ramSnapshot
      ∧ decode [] (.evt 0b011 (.offset 0)) = .error (.operands 0b011) := by decide

/-- R107: a BUS word never decodes to a generic row; the generic rows encode to the word of their leaf (R102). -/
theorem test_encode_generic :
    encode (fixedMap Params.default) (.busRd 0xC003) = some (.bus 0x1C00300)
      ∧ encode (fixedMap Params.default) (.busWr 0xC003 0xFF) = some (.bus 0x0C003FF)
      ∧ decode (fixedMap Params.default) (.bus 0x1C00300) = .ok .rdDdra := by decide

/-- T7: words written from the text of a transaction. -/
theorem test_encode_words :
    encode (fixedMap Params.default) (.wrDdra 0xFF) = some (.bus 0x0C003FF)
      ∧ encode (fixedMap Params.default) .rdPcr = some (.bus 0x1C00C00)
      ∧ encode (fixedMap Params.default) (.ramWr 0x0010 0xA6) = some (.bus 0x00010A6)
      ∧ encode (fixedMap Params.default) (.romRd 0x0000) = some (.bus 0x1E00000)
      ∧ encode (fixedMap Params.default) (.romWr 0xFFFF 0x01) = some (.bus 0x0FFFF01)
      ∧ encode (fixedMap Params.default) .viaReset = some (.evt 0b011 .none) := by decide

/-- R114, T7: the text of a transaction, by address and by symbol (R115). -/
theorem test_notation :
    Request.wr 0xC003 0xFF = .bus 0x0C003FF ∧ Request.rd 0xC001 = .bus 0x1C00100
      ∧ Request.wr Symbol.orb.address 0xA7 = .bus 0x0C000A7 ∧ Request.rd Symbol.pcr.address = .bus 0x1C00C00
      ∧ Request.wr Symbol.ira.address 0x3C = Request.wr Symbol.ora.address 0x3C
      ∧ decode [] (.attach .via "VIA" 0xC000) = .ok (.busAttach .via "VIA" 0xC000)
      ∧ decode [] (.ctrl2 4) = .ok (.ctrl2Mode 4) ∧ decode [] .snapshot = .ok .ramSnapshot := by decide

/-- A word with a bit above its format is no request. -/
theorem test_table_word_too_wide : decodeTableWord 32 0x2000000 = none ∧ decodeTableWord 8 0x08 = none := by decide

/-- Words of the opcode table placed by withFetchWord run as the first operation after reset. -/
theorem test_first_after_reset :
    after (step (State.reset.withFetchWord 32 0x0C003FF)) (fun s => s.via.ddra) = some 0xFF
      ∧ after (step (State.reset.withFetchWord 32 0x0C00D7F)) (fun s => s.halt)
        = some (some (.viaUnhandledRegister 0xD .write))
      ∧ after (step (State.reset.withFetchWord 8 0b100)) (fun s => s.phase) = some .shutDown := by decide

/-- With nothing issued the state is constant (R81); a code without its operands is refused. -/
theorem test_step_idle :
    after (step State.reset) (fun s => s) = some State.reset
      ∧ refusal (step { State.reset with ops := [.evt 0b011 (.offset 0)] })
        = some (.undecodable (.operands 0b011)) := by decide

/-! ## The port operations -/

/-- T1: compose. -/
theorem test_compose :
    compose 0xA5 0x3C 0x0F = 0xAC ∧ compose 0x5A 0xFF 0x00 = 0x5A ∧ compose 0xFF 0x3C 0xFF = 0x3C
      ∧ compose 0xFF 0x00 0xAA = 0x55 ∧ compose 0x12 0x34 0xF0 = 0x32 ∧ compose 0x81 0x7E 0x81 = 0x00
      ∧ compose 0xC3 0x3C 0x55 = 0x96 := by decide

/-- S8: the source's mixed-direction scenario; IRA holds the composed input. -/
theorem test_rdIra_mixed :
    after (exec .rdIra (portABoard [pad 1 0xF0] 0x3C 0x0F [0xA5]))
        (fun s => (s.answer, s.via.ira, s.via.ora, s.world.trace))
      = some (.byte 0xAC, 0xA0, 0x3C, [.pRead .a 0 0xA5]) := by decide

/-- T2: no peripheral, `O & D`. -/
theorem test_rdIra_empty :
    after (exec .rdIra (portABoard [] 0x81 0x80 [])) (fun s => (s.answer, s.via.ira))
      = some (.byte 0x80, 0x00) := by decide

/-- P1: rubbish outside the masks, the bits of ORB where the pin is an output. -/
theorem test_rdIrb_two :
    after (exec .rdIrb (portBBoard [pad 1 0x0F, pad 2 0xF0] 0xA7 0xF0 [0xF6, 0x0F]))
        (fun s => (s.answer, s.via.irb, s.world.trace))
      = some (.byte 0xA6, 0x06, [.pRead .b 0 0xF6, .pRead .b 1 0x0F]) := by decide

/-- T3: shared pins are OR-ed; a stale IRB takes no part. -/
theorem test_rdIrb_shared :
    after (exec .rdIrb { portBBoard [pad 1 0x3C, pad 2 0x18] 0xFF 0x00 [0x14, 0x08] with
        via := { Via.constructed with portB := [pad 1 0x3C, pad 2 0x18], orb := 0xFF, irb := 0xFF } })
      (fun s => (s.answer, s.via.irb)) = some (.byte 0x1C, 0x1C) := by decide

/-- T4: `d & DDRA & mask` in attachment order, ORA whole. -/
theorem test_wrOra_fanout :
    after (exec (.wrOra 0xFF) (portABoard [pad 1 0x0F, pad 2 0xF0] 0x00 0xF0 []))
        (fun s => (s.via.ora, s.via.ira, s.world.trace))
      = some (0xFF, 0x00, [.pWrite .a 0 0x00, .pWrite .a 1 0xF0]) := by decide

/-- R202: the diagnostic line comes before the fan-out and carries the byte unmasked. -/
theorem test_wrOra_diag :
    after (exec (.wrOra 0x41) { portABoard [pad 1 0xFF] 0x00 0x00 [] with
        params := { Params.default with diagAscii := true } })
      (fun s => s.world.trace) = some [.diag .a 0x41, .pWrite .a 0 0x00] := by decide

/-- T4: `d & DDRB & mask`; no port-A peripheral is called. -/
theorem test_wrOrb_fanout :
    after (exec (.wrOrb 0xA5) { portBBoard [pad 1 0x3C, pad 2 0x18] 0x00 0xFF [] with
        via := { Via.constructed with portA := [pad 3 0xFF], portB := [pad 1 0x3C, pad 2 0x18], ddrb := 0xFF } })
      (fun s => (s.via.orb, s.via.ora, s.world.trace))
      = some (0xA5, 0x00, [.pWrite .b 0 0x24, .pWrite .b 1 0x00]) := by decide

/-- R160 corner case 3: with no peripheral only the store happens. -/
theorem test_wrOrb_empty :
    after (exec (.wrOrb 0xFF) (portBBoard [] 0x00 0x3C [])) (fun s => (s.via.orb, s.world.trace))
      = some (0xFF, []) := by decide

/-! ## The plain registers (T8) -/

theorem test_ddr_writes :
    after (exec (.wrDdrb 0xF0) (portBBoard [pad 1 0xFF] 0x55 0x00 []))
        (fun s => (s.via.ddrb, s.via.ddra, s.via.orb, s.world.trace)) = some (0xF0, 0x00, 0x55, [])
      ∧ after (exec (.wrDdra 0x0F) (portABoard [pad 1 0xFF] 0x55 0x00 []))
        (fun s => (s.via.ddra, s.via.ddrb, s.via.ora, s.world.trace)) = some (0x0F, 0x00, 0x55, []) := by decide

theorem test_ddr_reads :
    after (exec .rdDdrb (portBBoard [pad 1 0xFF] 0x55 0xF0 [])) (fun s => (s.answer, s.world.trace))
        = some (.byte 0xF0, [])
      ∧ after (exec .rdDdra (portABoard [pad 1 0xFF] 0x55 0x0F [])) (fun s => (s.answer, s.world.trace))
        = some (.byte 0x0F, []) := by decide

theorem test_pcr :
    after (exec (.wrPcr 0xEE) board) (fun s => (s.via.pcr, s.answer)) = some (0xEE, .none)
      ∧ after (exec .rdPcr { board with via := { Via.constructed with pcr := 0xEE } }) (fun s => s.answer)
        = some (.byte 0xEE) := by decide

/-! ## The unhandled register selects (T9, T13) -/

theorem test_unhandled_writes :
    ([Instr.wrUnh4 0x00, .wrUnh5 0x00, .wrUnh6 0x00, .wrUnh7 0x00, .wrUnh8 0x00, .wrUnh9 0x00, .wrUnhA 0x00,
        .wrUnhB 0xFF, .wrUnhD 0x00, .wrUnhE 0x7F, .wrUnhF 0xFF].map fun i =>
      after (exec i (portABoard [pad 1 0xFF] 0x12 0xFF [])) fun s => (s.halt, s.via.ora, s.world.trace))
      = [0x4#4, 0x5#4, 0x6#4, 0x7#4, 0x8#4, 0x9#4, 0xA#4, 0xB#4, 0xD#4, 0xE#4, 0xF#4].map fun rs =>
        some (some (.viaUnhandledRegister rs .write), 0x12, []) := by decide

theorem test_unhandled_reads :
    ([Instr.rdUnh4, .rdUnh5, .rdUnh6, .rdUnh7, .rdUnh8, .rdUnh9, .rdUnhA, .rdUnhB, .rdUnhD, .rdUnhE,
        .rdUnhF].map fun i =>
      after (exec i (portABoard [pad 1 0xFF] 0x12 0xFF [0xA5])) fun s => (s.halt, s.answer, s.world.trace))
      = [0x4#4, 0x5#4, 0x6#4, 0x7#4, 0x8#4, 0x9#4, 0xA#4, 0xB#4, 0xD#4, 0xE#4, 0xF#4].map fun rs =>
        some (some (.viaUnhandledRegister rs .read), .none, []) := by decide

/-! ## The bus and its devices -/

/-- T14 and R35. -/
theorem test_ram :
    after (exec (.ramWr 0x7FFF 0x34) board) (fun s => (Memory.read s.ram 0x7FFF, Memory.read s.ram 0x7FFE))
        = some (0x34, 0x00)
      ∧ after (exec (.ramRd 0x0002) smallBoard) (fun s => s.answer) = some (.byte 0x03)
      ∧ refusal (exec (.ramRd 0x0004) smallBoard) = some (.deviceOffset .ram 0x0004) := by decide

/-- A write of what an unlisted byte reads as removes the cell: equal memories are equal data. -/
theorem test_ram_canonical :
    after (exec (.ramWr 0x0001 0x00) smallBoard) (fun s => s.ram) = some [(0, 0x01), (2, 0x03), (3, 0x04)]
      ∧ after (exec (.ramWr 0x0001 0xAA) smallBoard) (fun s => s.ram)
        = some [(0, 0x01), (1, 0xAA), (2, 0x03), (3, 0x04)] := by decide

theorem test_rom_read :
    after (exec (.romRd 0x0001) smallBoard) (fun s => s.answer) = some (.byte 0xEA)
      ∧ refusal (exec (.romRd 0x0002) smallBoard) = some (.deviceOffset .rom 0x0002) := by decide

/-- T13 and R264. -/
theorem test_rom_write :
    after (exec (.romWr 0xE123 0x00) board) (fun s => s.halt) = some (some (.romWrite 0xE123 0x00))
      ∧ after (exec (.romWr 0xE123 0x00) { board with params := { Params.default with romWritePolicy := .ignore } })
        (fun s => (s.halt, s.answer)) = some (none, .none) := by decide

theorem test_unmapped :
    after (exec (.unmappedRd 0xC010) board) (fun s => (s.halt, s.answer))
        = some (some (.unmappedAccess 0xC010 .read), .none)
      ∧ after (exec (.unmappedWr 0xD000 0x12) board) (fun s => (s.halt, s.ram))
        = some (some (.unmappedAccess 0xD000 .write), []) := by decide

/-- T6: the generic read at the ends of the ranges, P2's port read by address among them. -/
theorem test_busRd :
    after (exec (.busRd 0xC001) (portABoard [pad 1 0xFF] 0x81 0x80 [0x42])) (fun s => s.answer) = some (.byte 0xC2)
      ∧ after (exec (.busRd 0xE001) smallBoard) (fun s => s.answer) = some (.byte 0xEA)
      ∧ after (exec (.busRd 0xC010) smallBoard) (fun s => s.halt) = some (some (.unmappedAccess 0xC010 .read))
      ∧ after (exec (.busRd 0xC00F) smallBoard) (fun s => s.halt)
        = some (some (.viaUnhandledRegister 0xF .read)) := by decide

/-- R136: one device receives the write. -/
theorem test_busWr :
    after (exec (.busWr 0xC003 0xFF) smallBoard) (fun s => (s.via.ddra, s.ram)) = some (0xFF, smallBoard.ram)
      ∧ after (exec (.busWr 0x0003 0x99) smallBoard) (fun s => (s.via, Memory.read s.ram 3))
        = some (Via.constructed, 0x99)
      ∧ after (exec (.busWr 0xE000 0x00) smallBoard) (fun s => s.halt) = some (some (.romWrite 0xE000 0x00))
      ∧ after (exec (.busWr 0x0004 0x00) smallBoard) (fun s => s.halt)
        = some (some (.unmappedAccess 0x0004 .write)) := by decide

/-! ## BUS_ATTACH (T5) -/

/-- The checks of BUS_ATTACH on bare ranges. -/
theorem test_attach_checks :
    attachFault [⟨0x0000, 0xC000, .ram, ""⟩] 0xC000 0x10 = none
      ∧ attachFault [⟨0x0000, 0xC001, .ram, ""⟩] 0xC000 0x10 = some (.configOverlap 0xC000 0x10 0x0000 0xC001)
      ∧ attachFault [⟨0x0000, 0x10000, .ram, ""⟩] 0xC000 0x10 = some (.configOverlap 0xC000 0x10 0x0000 0x10000)
      ∧ attachFault [⟨0xC000, 0x10, .via, ""⟩] 0xBFFF 2 = some (.configOverlap 0xBFFF 2 0xC000 0x10)
      ∧ attachFault [⟨0xC000, 0x10, .via, ""⟩] 0xC010 1 = none
      ∧ attachFault [⟨0x0000, 0x100, .ram, ""⟩, ⟨0x4000, 0x100, .rom, ""⟩] 0x4080 0x10
        = some (.configOverlap 0x4080 0x10 0x4000 0x100)
      ∧ attachFault [] 0xFFFF 1 = none ∧ attachFault [] 0xFFFF 2 = some (.configRange 0xFFFF 2)
      ∧ attachFault [] 0x0000 0 = some (.configRange 0x0000 0) ∧ attachFault [] 0x0000 0x10000 = none
      ∧ attachFault [⟨0xF000, 0x1000, .rom, ""⟩] 0xFF00 0x200 = some (.configRange 0xFF00 0x200) := by decide

/-- R131's example: the VIA, then a ROM that overlaps it. -/
theorem test_busAttach :
    after (exec (.busAttach .via "VIA" 0xC000) { State.reset with att := [⟨0x0000, 0x8000, .ram, "RAM"⟩] })
        (fun s => s.att) = some [⟨0x0000, 0x8000, .ram, "RAM"⟩, ⟨0xC000, 16, .via, "VIA"⟩]
      ∧ after (exec (.busAttach .rom "ROM" 0xC008) { State.reset with att := [⟨0xC000, 16, .via, "VIA"⟩] })
        (fun s => (s.halt, s.att))
        = some (some (.configOverlap 0xC008 0x2000 0xC000 16), [⟨0xC000, 16, .via, "VIA"⟩])
      ∧ refusal (exec (.busAttach .via "VIA" 0xD000) { board with phase := .running })
        = some .attachAfterStart := by decide

/-! ## Host events on the VIA and the RAM -/

/-- T15, R174: the new peripheral is sent nothing; one that is on a port already is refused. -/
theorem test_viaAttachA :
    after (exec (.viaAttachA (pad 2 0xFF)) (portABoard [pad 1 0x0F] 0x41 0xFF []))
        (fun s => (s.via.portA, s.via.ora, s.world.trace))
        = some ([pad 1 0x0F, pad 2 0xFF], 0x41, [.attachLog .a "p" 0xFF])
      ∧ refusal (exec (.viaAttachA (pad 1 0xFF)) (portBBoard [pad 1 0x0F] 0x00 0x00 []))
        = some (.peripheralAttachedTwice 1) := by decide

theorem test_viaAttachB :
    after (exec (.viaAttachB (pad 2 0xFF)) (portBBoard [pad 1 0x0F] 0x41 0xFF []))
        (fun s => (s.via.portB, s.via.portA, s.world.trace))
        = some ([pad 1 0x0F, pad 2 0xFF], [], [.attachLog .b "p" 0xFF])
      ∧ refusal (exec (.viaAttachB (pad 1 0xFF)) (portBBoard [pad 1 0x0F] 0x00 0x00 []))
        = some (.peripheralAttachedTwice 1) := by decide

/-- T11. -/
theorem test_viaReset :
    after (exec .viaReset { smallBoard with
        via := ⟨0x3C, 0x55, 0xA0, 0x0F, 0x0F, 0xFF, 0xEE, [pad 1 0xF0], [pad 2 0x0F, pad 3 0xF0]⟩ })
      (fun s => (s.via, s.ram, s.world.trace))
      = some (⟨0x00, 0x00, 0x00, 0x00, 0x00, 0x00, 0x00, [pad 1 0xF0], [pad 2 0x0F, pad 3 0xF0]⟩,
        smallBoard.ram, []) := by decide

/-- T12: a failure is recorded and passed over; it runs while halted. -/
theorem test_viaShutdown :
    after (exec .viaShutdown { halted with
        via := { Via.constructed with portA := [pad 1 0xFF, pad 2 0xFF], portB := [pad 3 0xFF, pad 4 0xFF] }
        world := { World.initial with reports := [true, false, true, true] } })
      (fun s => (s.world.trace, s.halt))
      = some ([.pShutdown .a 0 true, .pShutdown .a 1 false, .pShutdown .b 0 true, .pShutdown .b 1 true],
        halted.halt) := by decide

/-- T10. -/
theorem test_ctrl1 :
    after (exec (.ctrl1Mode 0) { board with via := { Via.constructed with pcr := 0x53 } }) (fun s => s.answer)
        = some (.mode1 1)
      ∧ after (exec (.ctrl1Mode 4) { board with via := { Via.constructed with pcr := 0xEE } }) (fun s => s.answer)
        = some (.mode1 0)
      ∧ refusal (exec (.ctrl1Mode 1) board) = some (.controlOffset 1) := by decide

/-- T10. -/
theorem test_ctrl2 :
    after (exec (.ctrl2Mode 0) { board with via := { Via.constructed with pcr := 0xAC } }) (fun s => s.answer)
        = some (.mode3 6)
      ∧ after (exec (.ctrl2Mode 4) { board with via := { Via.constructed with pcr := 0xAC } }) (fun s => s.answer)
        = some (.mode3 5)
      ∧ refusal (exec (.ctrl2Mode 5) board) = some (.controlOffset 5) := by decide

/-- R248's example, also while halted. -/
theorem test_ramSnapshot :
    after (exec .ramSnapshot smallBoard) (fun s => s.answer) = some (.snapshot [0x01, 0x02, 0x03, 0x04])
      ∧ after (exec .ramSnapshot { smallBoard with halt := halted.halt }) (fun s => (s.answer, s.halt))
        = some (.snapshot [0x01, 0x02, 0x03, 0x04], halted.halt) := by decide

/-- T13, P6: the codes of the latched records. -/
theorem test_fault_codes :
    after (exec (.busRd 0x8000) board) (fun s => s.halt.map FaultRecord.code) = some (some 4)
      ∧ after (exec (.busWr 0xE123 0x00) board) (fun s => s.halt.map FaultRecord.code) = some (some 6)
      ∧ after (exec (.busWr 0xC00E 0x7F) board) (fun s => s.halt.map FaultRecord.code) = some (some 5)
      ∧ after (exec (.busAttach .via "VIA" 0xC00F) board) (fun s => s.halt.map FaultRecord.code)
        = some (some 1) := by decide

/-- T13: no step while halted; nothing but VIA_SHUTDOWN after VIA_SHUTDOWN. -/
theorem test_stopped :
    fault (exec (.busRd 0x0000) halted) = some (.halted (.unmappedAccess 0x8000 .read))
      ∧ fault (exec .viaReset halted) = some (.halted (.unmappedAccess 0x8000 .read))
      ∧ refusal (exec .ramSnapshot shut) = some .afterShutdown
      ∧ refusal (exec (.wrOra 0x00) shut) = some .afterShutdown
      ∧ after (exec .viaShutdown shut) (fun s => s.phase) = some .shutDown := by decide

/-! ## Witnesses for the statements with hypotheses -/

/-- For every statement whose only hypothesis is `Ready`: the registers, the ports, the unhandled register selects,
reset and the control modes; in both phases. -/
theorem test_witness_ready :
    board.Ready ∧ { board with phase := .running }.Ready ∧ State.reset.Ready
      ∧ (portABoard [pad 1 0xF0, pad 2 0x0F] 0x3C 0x0F [0xA5]).Ready := by decide

theorem test_witness_ResetMeetsTheInvariant :
    Memory.wf [(0, 0x01), (3, 0x02)] ∧ Memory.below [(0, 0x01), (3, 0x02)] small.ramSize
      ∧ Memory.wf small.romImage ∧ Memory.below small.romImage small.romSize := by decide

theorem test_witness_StepRunsTheDecodedOperation :
    ({ board with ops := [.bus 0x0C003FF, .evt 0b011 .none] }.ops = .bus 0x0C003FF :: [.evt 0b011 .none]
        ∧ decode board.att (.bus 0x0C003FF) = .ok (.wrDdra 0xFF))
      ∧ board.ops = []
      ∧ ({ board with ops := [.evt 0b101 .none] }.ops = .evt 0b101 .none :: []
        ∧ decode board.att (.evt 0b101 .none) = .error (.operands 0b101)) := by decide

theorem test_witness_PlacedTableWordRunsNext :
    (requestOfTableWord 32 0x1FFFFFF = some (.bus 0x1FFFFFF)
        ∧ decode (mapForTable board (.bus 0x1FFFFFF)) (.bus 0x1FFFFFF) = .ok (.romRd 0x1FFF))
      ∧ (requestOfTableWord 32 0x0C00100 = some (.bus 0x0C00100)
        ∧ decode (mapForTable State.reset (.bus 0x0C00100)) (.bus 0x0C00100) = .ok (.wrOra 0x00))
      ∧ (requestOfTableWord 8 0b111 = some (.evt 0b111 .none)
        ∧ decode (mapForTable State.reset (.evt 0b111 .none)) (.evt 0b111 .none) = .ok .ramSnapshot) := by decide

theorem test_witness_DecodeInvertsEncode :
    ((fixedMap small).Admitted small ∧ (Instr.ramWr 0x0003 0xFF).isGeneric = false
        ∧ (Instr.ramWr 0x0003 0xFF).wellFormed small (fixedMap small) = true
        ∧ encode (fixedMap small) (.ramWr 0x0003 0xFF) = some (.bus 0x00003FF))
      ∧ (small.FixedMapSizes ∧ small.hasRom = true ∧ (Instr.romRd 0x0001).isGeneric = false
        ∧ (Instr.romRd 0x0001).wellFormed small (fixedMap small) = true)
      ∧ (Instr.romWr 0xE001 0xFF).wellFormed small (fixedMap small) = true
      ∧ (Instr.unmappedRd 0xE002).wellFormed small (fixedMap small) = true := by decide

/-- Maps other than the fixed one, ranges that touch and one that ends at 0x10000 among them. -/
theorem test_witness_EveryBusWordIsALeafRow :
    AddressMap.Admitted Params.default (fixedMap Params.default) ∧ AddressMap.Admitted small []
      ∧ AddressMap.Admitted small [⟨0xFFF0, 16, .via, ""⟩, ⟨0xFFEC, 4, .ram, ""⟩]
      ∧ AddressMap.Admitted { small with ramSize := 0x10000 } [⟨0x0000, 0x10000, .ram, ""⟩] := by decide

theorem test_witness_FixedMapDecisionList :
    Params.FixedMapSizes { Params.default with ramSize := 1, romSize := 1 }
      ∧ Params.FixedMapSizes { Params.default with ramSize := 0xC000, romSize := 0x2000 }
      ∧ Params.FixedMapSizes { Params.default with hasRom := false } := by decide

/-- One address in each line of R107's list, at its ends. -/
theorem test_witness_FixedMapDecisionList_lines :
    decode (fixedMap small) (.bus (BusWord.make true 0x0003 0x00)) = .ok (.ramRd 0x0003)
      ∧ decode (fixedMap small) (.bus (BusWord.make false 0xC000 0x01)) = .ok (.wrOrb 0x01)
      ∧ decode (fixedMap small) (.bus (BusWord.make true 0xC00F 0x00)) = .ok .rdUnhF
      ∧ decode (fixedMap small) (.bus (BusWord.make true 0xE001 0x00)) = .ok (.romRd 0x0001)
      ∧ decode (fixedMap small) (.bus (BusWord.make true 0xE002 0x00)) = .ok (.unmappedRd 0xE002) := by decide

theorem test_witness_OneOwnerPerAddress :
    (fixedMap small).Admitted small ∧ (fixedMap small)[1].owns 0xC00F = true
      ∧ (fixedMap small).owner 0xC00F = some ⟨0xC000, 16, .via, "VIA"⟩
      ∧ (fixedMap small).owner 0xC010 = none := by decide

theorem test_witness_InputPinIsOrOfWiredPeripherals :
    (∃ t, exec .rdIra (portABoard [pad 1 0x80] 0x00 0xFF [0x80]) = .next t ∧ t.via.ira.getLsbD 7 = true)
      ∧ ∃ t, exec .rdIrb (portBBoard [pad 1 0x01] 0x00 0x00 [0x00]) = .next t ∧ t.via.irb.getLsbD 0 = false :=
  ⟨⟨_, rfl, by decide⟩, ⟨_, rfl, by decide⟩⟩

/-- Port A, the order of T3's rows 3 and 5. -/
theorem test_witness_PeripheralOrderDoesNotChangeTheByte :
    ((portABoard [pad 1 0x0F, pad 2 0xF0] 0x3C 0x0F [0x35, 0xA9]).via.portA.zip
        ((portABoard [pad 1 0x0F, pad 2 0xF0] 0x3C 0x0F [0x35, 0xA9]).portBytes .a)).Perm
      ((portABoard [pad 2 0xF0, pad 1 0x0F] 0x3C 0x0F [0xA9, 0x35]).via.portA.zip
        ((portABoard [pad 2 0xF0, pad 1 0x0F] 0x3C 0x0F [0xA9, 0x35]).portBytes .a))
      ∧ (∃ t, exec .rdIra (portABoard [pad 1 0x0F, pad 2 0xF0] 0x3C 0x0F [0x35, 0xA9]) = .next t)
      ∧ ∃ t, exec .rdIra (portABoard [pad 2 0xF0, pad 1 0x0F] 0x3C 0x0F [0xA9, 0x35]) = .next t :=
  ⟨by decide, ⟨_, rfl⟩, ⟨_, rfl⟩⟩

/-- The same for port B. -/
theorem test_witness_PeripheralOrderDoesNotChangeTheByte_portB :
    ((portBBoard [pad 1 0x0F, pad 2 0xF0] 0x3C 0x0F [0x35, 0xA9]).via.portB.zip
        ((portBBoard [pad 1 0x0F, pad 2 0xF0] 0x3C 0x0F [0x35, 0xA9]).portBytes .b)).Perm
      ((portBBoard [pad 2 0xF0, pad 1 0x0F] 0x3C 0x0F [0xA9, 0x35]).via.portB.zip
        ((portBBoard [pad 2 0xF0, pad 1 0x0F] 0x3C 0x0F [0xA9, 0x35]).portBytes .b))
      ∧ (∃ t, exec .rdIrb (portBBoard [pad 1 0x0F, pad 2 0xF0] 0x3C 0x0F [0x35, 0xA9]) = .next t)
      ∧ ∃ t, exec .rdIrb (portBBoard [pad 2 0xF0, pad 1 0x0F] 0x3C 0x0F [0xA9, 0x35]) = .next t :=
  ⟨by decide, ⟨_, rfl⟩, ⟨_, rfl⟩⟩

/-- Rubbish outside the mask, on port A and on port B. -/
theorem test_witness_BitsOutsideTheMaskAreDropped :
    ((portABoard [pad 1 0x0F] 0x00 0x00 [0xF5]).Ready
        ∧ (portABoard [pad 1 0x0F] 0x00 0x00 [0xF5]).via.portA.length ≤ [0x05#8].length
        ∧ 0x05#8 &&& (pad 1 0x0F).mask
          = (portABoard [pad 1 0x0F] 0x00 0x00 [0xF5]).world.readAt 0 &&& (pad 1 0x0F).mask)
      ∧ (portBBoard [pad 1 0xF0] 0x00 0x00 [0xA9]).Ready
        ∧ (portBBoard [pad 1 0xF0] 0x00 0x00 [0xA9]).via.portB.length ≤ [0xA0#8].length
        ∧ 0xA0#8 &&& (pad 1 0xF0).mask
          = (portBBoard [pad 1 0xF0] 0x00 0x00 [0xA9]).world.readAt 0 &&& (pad 1 0xF0).mask := by decide

theorem test_witness_ReadBackWithoutPeripherals :
    board.Ready ∧ board.via.portA = [] ∧ board.via.portB = [] := by decide

theorem test_witness_PeripheralAttachmentAppends :
    (board.Ready ∧ ∀ q ∈ board.via.portA ++ board.via.portB, q.id ≠ (pad 1 0xFF).id)
      ∧ ((portBBoard [pad 1 0x0F] 0x00 0x00 []).Ready
        ∧ ∃ q ∈ (portBBoard [pad 1 0x0F] 0x00 0x00 []).via.portA ++ (portBBoard [pad 1 0x0F] 0x00 0x00 []).via.portB,
            q.id = (pad 1 0xFF).id) := by decide

theorem test_witness_OtherControlOffsetsAreRefused :
    board.Ready ∧ (1 ≠ 0 ∧ 1 ≠ 4) ∧ (3 ≠ 0 ∧ 3 ≠ 4) ∧ (5 ≠ 0 ∧ 5 ≠ 4) := by decide

theorem test_witness_SnapshotReturnsTheRam : smallBoard.phase ≠ .shutDown ∧ halted.phase ≠ .shutDown := by decide

theorem test_witness_ram :
    (board.Ready ∧ (0x7FFF : Addr).toNat < board.params.ramSize ∧ (0x0000 : Addr).toNat < board.params.ramSize)
      ∧ (Params.FixedMapSizes { small with ramSize := 0xC000 } ∧ (0xBFFF : Addr).toNat < 0xC000) := by decide

theorem test_witness_RomReadReturnsTheImage :
    (board.Ready ∧ (0x1FFF : Addr).toNat < board.params.romSize)
      ∧ (Params.default.FixedMapSizes ∧ Params.default.hasRom = true
        ∧ 0xE000 ≤ (0xE000 : Addr).toNat ∧ (0xE000 : Addr).toNat < 0xE000 + Params.default.romSize
        ∧ 0xE000 ≤ (0xFFFF : Addr).toNat ∧ (0xFFFF : Addr).toNat < 0xE000 + Params.default.romSize) := by decide

theorem test_witness_RomWriteFollowsThePolicy :
    (board.Ready ∧ board.params.romWritePolicy = .fault)
      ∧ ({ board with params := { small with romWritePolicy := .ignore } }.Ready
        ∧ { board with params := { small with romWritePolicy := .ignore } }.params.romWritePolicy = .ignore) := by
  decide

theorem test_witness_UnmappedAccessFaults :
    board.Ready
      ∧ (∀ t ∈ fixedMap small, ¬ (t.base.toNat ≤ (0x0004 : Addr).toNat ∧ (0x0004 : Addr).toNat < t.base.toNat + t.size))
      ∧ (∀ t ∈ fixedMap small, ¬ (t.base.toNat ≤ (0xC010 : Addr).toNat ∧ (0xC010 : Addr).toNat < t.base.toNat + t.size))
      ∧ ∀ t ∈ fixedMap small, ¬ (t.base.toNat ≤ (0xFFFF : Addr).toNat ∧ (0xFFFF : Addr).toNat < t.base.toNat + t.size) := by
  decide

/-- An owner of each kind, at the ends of the ranges, and none; for the read and the write statement. -/
theorem test_witness_bus :
    smallBoard.att.Admitted smallBoard.params ∧ smallBoard.Ready
      ∧ smallBoard.att.owner 0x0003 = some ⟨0x0000, 4, .ram, "RAM"⟩
      ∧ smallBoard.att.owner 0xE001 = some ⟨0xE000, 2, .rom, "ROM"⟩
      ∧ smallBoard.att.owner 0xC000 = some ⟨0xC000, 16, .via, "VIA"⟩
      ∧ smallBoard.att.owner 0xC00F = some ⟨0xC000, 16, .via, "VIA"⟩
      ∧ smallBoard.att.owner 0x0004 = none ∧ smallBoard.att.owner 0xFFFF = none := by decide

theorem test_witness_GenericTransactionIsItsLeaf :
    decode smallBoard.att (.bus 0x1C00100) = .ok .rdIra ∧ BusWord.isRead 0x1C00100 = true
      ∧ decode smallBoard.att (.bus 0x0FFFF01) = .ok (.unmappedWr 0xFFFF 0x01)
      ∧ BusWord.isRead 0x0FFFF01 = false := by decide

/-- The same location through one attachment, another one, and through two attachments of the RAM. -/
theorem test_witness_RamReturnsTheLastWrite :
    smallBoard.att.Admitted smallBoard.params ∧ smallBoard.Ready
      ∧ smallBoard.att.owner 0x0000 = some ⟨0x0000, 4, .ram, "RAM"⟩
      ∧ smallBoard.att.owner 0x0003 = some ⟨0x0000, 4, .ram, "RAM"⟩
      ∧ AddressMap.Admitted small [⟨0x0000, 4, .ram, ""⟩, ⟨0x0004, 4, .ram, ""⟩]
      ∧ AddressMap.owner [⟨0x0000, 4, .ram, ""⟩, ⟨0x0004, 4, .ram, ""⟩] 0x0004 = some ⟨0x0004, 4, .ram, ""⟩ := by
  decide

theorem test_witness_AttachAppendsADisjointRange :
    (State.construct Params.default []).Configuring ∧ 1 ≤ Device.rom.size Params.default
      ∧ (0xE000 : Addr).toNat + Device.rom.size Params.default ≤ 0x10000
      ∧ ∀ t ∈ ([⟨0x0000, 0x8000, .ram, "RAM"⟩, ⟨0xDFF0, 16, .via, "VIA"⟩] : AddressMap),
        (0xE000 : Addr).toNat + Device.rom.size Params.default ≤ t.base.toNat
          ∨ t.base.toNat + t.size ≤ (0xE000 : Addr).toNat := by decide

theorem test_witness_AttachOutsideTheSpaceFaults :
    State.reset.Configuring ∧ Device.ram.size { small with ramSize := 0 } = 0
      ∧ 0x10000 < (0xFFF1 : Addr).toNat + Device.via.size small
      ∧ 0x10000 < (0xE001 : Addr).toNat + Device.rom.size Params.default := by decide

/-- The first of two overlapping attachments, with one before it that only touches. -/
theorem test_witness_AttachReportsTheFirstOverlap :
    State.reset.Configuring
      ∧ [⟨0xBFF0, 16, .ram, ""⟩, ⟨0xC00F, 1, .rom, ""⟩, ⟨0xC000, 1, .rom, ""⟩]
        = ([⟨0xBFF0, 16, .ram, ""⟩] : AddressMap) ++ ⟨0xC00F, 1, .rom, ""⟩ :: [⟨0xC000, 1, .rom, ""⟩]
      ∧ 1 ≤ Device.via.size small ∧ (0xC000 : Addr).toNat + Device.via.size small ≤ 0x10000
      ∧ (∀ u ∈ ([⟨0xBFF0, 16, .ram, ""⟩] : AddressMap),
        (0xC000 : Addr).toNat + Device.via.size small ≤ u.base.toNat ∨ u.base.toNat + u.size ≤ (0xC000 : Addr).toNat)
      ∧ (0xC00F : Addr).toNat < (0xC000 : Addr).toNat + Device.via.size small
      ∧ (0xC000 : Addr).toNat < (0xC00F : Addr).toNat + 1 := by decide

theorem test_witness_AttachAfterTheFirstTransactionIsRefused :
    { board with phase := .running }.halt = none ∧ { board with phase := .running }.phase = .running := by decide

theorem test_witness_StartupBuildsTheFixedMap :
    small.FixedMapSizes ∧ (startup small (some (pad 1 0xFF))).length = 5
      ∧ Params.FixedMapSizes { small with hasRom := false } := by decide

theorem test_witness_OversizedRamNeverRuns :
    (0xC000 < 0xC001 ∧ 0xC001 ≤ 0x10000) ∧ (0xC000 < 0x10000 ∧ 0x10000 ≤ 0x10000)
      ∧ decode [⟨Config.ramBase, 0x10000, .ram, "RAM"⟩] (.bus 0x0C003FF) = .ok (.ramWr 0xC003 0xFF)
      ∧ (Instr.ramWr 0xC003 0xFF).isTeardown = false := by decide

theorem test_witness_TeardownEndsEveryRun :
    board.phase ≠ .shutDown ∧ board.ops = [] ∧ halted.phase ≠ .shutDown ∧ halted.ops = [] := by decide

theorem test_witness_HaltedMachineHasNoStep :
    halted.halt = some (.unmappedAccess 0x8000 .read) ∧ (Instr.busRd 0x0000).isTeardown = false := by decide

theorem test_witness_HaltIsSticky :
    ∃ t, step { halted with ops := [.evt 0b100 .none] } = .next t ∧ t.halt = halted.halt := ⟨_, rfl, by decide⟩

theorem test_witness_ShutDownMachineRefuses :
    shut.halt = none ∧ shut.phase = .shutDown ∧ Instr.ramSnapshot ≠ .viaShutdown := by decide

/-- A faulting operation of each kind (R260), from a state that is not halted. -/
theorem test_witness_faults :
    (∃ t, exec (.busRd 0x8000) board = .next t ∧ board.halt = none
        ∧ t.halt = some (.unmappedAccess 0x8000 .read))
      ∧ (∃ t, exec (.busWr 0xC00D 0x7F) board = .next t ∧ t.halt = some (.viaUnhandledRegister 0xD .write))
      ∧ (∃ t, exec (.romWr 0xFFFF 0x01) board = .next t ∧ t.halt = some (.romWrite 0xFFFF 0x01))
      ∧ (∃ t, exec (.busAttach .rom "" 0xFFFF) State.reset = .next t ∧ t.halt = some (.configRange 0xFFFF 0x2000))
      ∧ ∃ t, exec (.busAttach .via "" 0xC00F) board = .next t
        ∧ t.halt = some (.configOverlap 0xC00F 16 0xC000 16) :=
  ⟨⟨_, rfl, by decide, by decide⟩, ⟨_, rfl, by decide⟩, ⟨_, rfl, by decide⟩, ⟨_, rfl, by decide⟩,
    ⟨_, rfl, by decide⟩⟩

/-- Each field changed by one operation, the generic rows among them. -/
theorem test_witness_OnlyItsWritersChangeAField :
    (∃ t, exec (.busWr 0xC001 0x01) board = .next t ∧ t.via.ora ≠ board.via.ora)
      ∧ (∃ t, exec (.wrOrb 0x01) board = .next t ∧ t.via.orb ≠ board.via.orb)
      ∧ (∃ t, exec .rdIra (portABoard [pad 1 0xFF] 0x00 0x00 [0x80]) = .next t ∧ t.via.ira ≠ 0x00)
      ∧ (∃ t, exec .rdIrb (portBBoard [pad 1 0xFF] 0x00 0x00 [0x80]) = .next t ∧ t.via.irb ≠ 0x00)
      ∧ (∃ t, exec (.wrDdra 0x80) board = .next t ∧ t.via.ddra ≠ board.via.ddra)
      ∧ (∃ t, exec (.wrDdrb 0x80) board = .next t ∧ t.via.ddrb ≠ board.via.ddrb)
      ∧ (∃ t, exec (.wrPcr 0x80) board = .next t ∧ t.via.pcr ≠ board.via.pcr)
      ∧ (∃ t, exec (.viaAttachA (pad 1 0xFF)) board = .next t ∧ t.via.portA ≠ board.via.portA)
      ∧ (∃ t, exec (.viaAttachB (pad 1 0xFF)) board = .next t ∧ t.via.portB ≠ board.via.portB)
      ∧ (∃ t, exec (.busAttach .via "VIA" 0xC000) State.reset = .next t ∧ t.att ≠ State.reset.att)
      ∧ ∃ t, exec (.busWr 0x0003 0xFF) smallBoard = .next t ∧ Memory.read t.ram 3 ≠ Memory.read smallBoard.ram 3 :=
  ⟨⟨_, rfl, by decide⟩, ⟨_, rfl, by decide⟩, ⟨_, rfl, by decide⟩, ⟨_, rfl, by decide⟩, ⟨_, rfl, by decide⟩,
    ⟨_, rfl, by decide⟩, ⟨_, rfl, by decide⟩, ⟨_, rfl, by decide⟩, ⟨_, rfl, by decide⟩, ⟨_, rfl, by decide⟩,
    ⟨_, rfl, by decide⟩⟩

/-- A step that changes a list and the trace. -/
theorem test_witness_ListsOnlyGrow :
    ∃ t, step { board with ops := [.evt 0b001 (.peripheral (pad 1 0xF0))] } = .next t
      ∧ t.via.portA = [pad 1 0xF0] ∧ t.world.trace.length = 1 := ⟨_, rfl, by decide, by decide⟩

theorem test_witness_ParametersAreConstant :
    ∃ t, step { smallBoard with ops := [.bus 0x0E00000] } = .next t ∧ t.params.romImage = [(1, 0xEA)] :=
  ⟨_, rfl, by decide⟩

theorem test_witness_PortsAreIndependent :
    Instr.rdIra ∈ [Instr.wrOra 0x01, .rdIra, .wrDdra 0x01, .rdDdra]
      ∧ Instr.rdDdrb ∈ [Instr.wrOrb 0x01, .rdIrb, .wrDdrb 0x01, .rdDdrb] := by decide

theorem test_witness_PeripheralCallsHaveTheirCause :
    ∃ t, exec (.busWr 0xC001 0xFF) (portABoard [pad 1 0xF0] 0x00 0xFF []) = .next t
      ∧ t.world.trace = [] ++ [.pWrite .a 0 0xF0] := ⟨_, rfl, by decide⟩

theorem test_witness_StepKeepsTheInvariant :
    smallBoard.Inv ∧ (portABoard [pad 1 0xF0, pad 2 0x0F] 0x00 0x00 []).Inv
      ∧ ∃ t, step { smallBoard with ops := [.bus 0x00003FF] } = .next t := ⟨by decide, by decide, _, rfl⟩

end Sys2Proof.Tests
end

section
/-! PROOFS. The operations by kind, and the meaning of each kind: the facts about `exec` that every whole-machine
statement rests on. -/

namespace Sys2Proof

/-! ## The operations by kind -/

/-- WR_ORA or WR_ORB. -/
def Port.writeOp : Port → Byte → Instr
  | .a => .wrOra
  | .b => .wrOrb

/-- RD_IRA or RD_IRB. -/
def Port.readOp : Port → Instr
  | .a => .rdIra
  | .b => .rdIrb

/-- WR_DDRA or WR_DDRB. -/
def Port.dirOp : Port → Byte → Instr
  | .a => .wrDdra
  | .b => .wrDdrb

/-- VIA_ATTACH_A or VIA_ATTACH_B. -/
def Port.attachOp : Port → Peripheral → Instr
  | .a => .viaAttachA
  | .b => .viaAttachB

/-- The operations by kind: the 32 rows of the VIA's register map (R100) are the two decoder functions over the
register selects, the two attachments are one per port. -/
inductive Instr.Kind : Instr → Prop
  | busRd (a : Addr) : Kind (.busRd a)
  | busWr (a : Addr) (d : Byte) : Kind (.busWr a d)
  | ramRd (off : Addr) : Kind (.ramRd off)
  | ramWr (off : Addr) (d : Byte) : Kind (.ramWr off d)
  | romRd (off : Addr) : Kind (.romRd off)
  | romWr (a : Addr) (d : Byte) : Kind (.romWr a d)
  | unmappedRd (a : Addr) : Kind (.unmappedRd a)
  | unmappedWr (a : Addr) (d : Byte) : Kind (.unmappedWr a d)
  | viaRead (rs : RegSel) : Kind (decodeViaRead rs)
  | viaWrite (rs : RegSel) (d : Byte) : Kind (decodeViaWrite rs d)
  | busAttach (dev : Device) (label : String) (base : Addr) : Kind (.busAttach dev label base)
  | viaAttach (port : Port) (p : Peripheral) : Kind (port.attachOp p)
  | viaReset : Kind .viaReset
  | viaShutdown : Kind .viaShutdown
  | ctrl1Mode (n : Nat) : Kind (.ctrl1Mode n)
  | ctrl2Mode (n : Nat) : Kind (.ctrl2Mode n)
  | ramSnapshot : Kind .ramSnapshot

/-- Every operation is of one of the kinds. -/
theorem Instr.kind : (i : Instr) → i.Kind
  | .busRd a => .busRd a
  | .busWr a d => .busWr a d
  | .ramRd off => .ramRd off
  | .ramWr off d => .ramWr off d
  | .romRd off => .romRd off
  | .romWr a d => .romWr a d
  | .unmappedRd a => .unmappedRd a
  | .unmappedWr a d => .unmappedWr a d
  | .rdIrb => .viaRead 0x0
  | .rdIra => .viaRead 0x1
  | .rdDdrb => .viaRead 0x2
  | .rdDdra => .viaRead 0x3
  | .rdUnh4 => .viaRead 0x4
  | .rdUnh5 => .viaRead 0x5
  | .rdUnh6 => .viaRead 0x6
  | .rdUnh7 => .viaRead 0x7
  | .rdUnh8 => .viaRead 0x8
  | .rdUnh9 => .viaRead 0x9
  | .rdUnhA => .viaRead 0xA
  | .rdUnhB => .viaRead 0xB
  | .rdPcr => .viaRead 0xC
  | .rdUnhD => .viaRead 0xD
  | .rdUnhE => .viaRead 0xE
  | .rdUnhF => .viaRead 0xF
  | .wrOrb d => .viaWrite 0x0 d
  | .wrOra d => .viaWrite 0x1 d
  | .wrDdrb d => .viaWrite 0x2 d
  | .wrDdra d => .viaWrite 0x3 d
  | .wrUnh4 d => .viaWrite 0x4 d
  | .wrUnh5 d => .viaWrite 0x5 d
  | .wrUnh6 d => .viaWrite 0x6 d
  | .wrUnh7 d => .viaWrite 0x7 d
  | .wrUnh8 d => .viaWrite 0x8 d
  | .wrUnh9 d => .viaWrite 0x9 d
  | .wrUnhA d => .viaWrite 0xA d
  | .wrUnhB d => .viaWrite 0xB d
  | .wrPcr d => .viaWrite 0xC d
  | .wrUnhD d => .viaWrite 0xD d
  | .wrUnhE d => .viaWrite 0xE d
  | .wrUnhF d => .viaWrite 0xF d
  | .busAttach dev label base => .busAttach dev label base
  | .viaAttachA p => .viaAttach .a p
  | .viaAttachB p => .viaAttach .b p
  | .viaReset => .viaReset
  | .viaShutdown => .viaShutdown
  | .ctrl1Mode n => .ctrl1Mode n
  | .ctrl2Mode n => .ctrl2Mode n
  | .ramSnapshot => .ramSnapshot


@[simp] theorem decodeViaRead_isTransaction (rs : RegSel) : (decodeViaRead rs).isTransaction = true := by
  revert rs; decide

@[simp] theorem decodeViaRead_isGeneric (rs : RegSel) : (decodeViaRead rs).isGeneric = false := by
  revert rs; decide

@[simp] theorem decodeViaWrite_isTransaction (rs : RegSel) (d : Byte) :
    (decodeViaWrite rs d).isTransaction = true := by
  unfold decodeViaWrite; split <;> rfl

@[simp] theorem decodeViaWrite_isGeneric (rs : RegSel) (d : Byte) : (decodeViaWrite rs d).isGeneric = false := by
  unfold decodeViaWrite; split <;> rfl

@[simp] theorem Port.attachOp_isTransaction (port : Port) (p : Peripheral) :
    (port.attachOp p).isTransaction = false := by
  cases port <;> rfl

end Sys2Proof

namespace Sys2Proof.Machine

/-! ## Each kind's meaning -/

theorem exec_busRd (a : Addr) (s : State) : exec (.busRd a) s = transaction s (busRead a) := rfl

theorem exec_busWr (a : Addr) (d : Byte) (s : State) : exec (.busWr a d) s = transaction s (busWrite a d) := rfl

theorem exec_unmappedRd (a : Addr) (s : State) :
    exec (.unmappedRd a) s = transaction s (unmapped a .read) := rfl

theorem exec_unmappedWr (a : Addr) (d : Byte) (s : State) :
    exec (.unmappedWr a d) s = transaction s (unmapped a .write) := rfl

theorem exec_viaRead (rs : RegSel) (s : State) : exec (decodeViaRead rs) s = transaction s (viaRead rs) := by
  obtain ⟨⟨n, hn⟩⟩ := rs
  interval_cases n <;> rfl

theorem exec_viaWrite (rs : RegSel) (d : Byte) (s : State) :
    exec (decodeViaWrite rs d) s = transaction s (viaWrite rs d) := by
  obtain ⟨⟨n, hn⟩⟩ := rs
  interval_cases n <;> rfl

theorem exec_viaAttach (port : Port) (p : Peripheral) (s : State) :
    exec (port.attachOp p) s = hostEvent s (attachPeripheral port p) := by
  cases port <;> rfl

/-- Every bus transaction runs behind the checks and the phase change of `transaction`. -/
theorem exec_transaction {i : Instr} (h : i.isTransaction = true) :
    ∃ k : State → Result, ∀ s, exec i s = transaction s k := by
  cases i.kind with
  | viaRead rs => exact ⟨_, exec_viaRead rs⟩
  | viaWrite rs d => exact ⟨_, exec_viaWrite rs d⟩
  | busRd | busWr | ramRd | ramWr | romRd | romWr | unmappedRd | unmappedWr => exact ⟨_, fun _ => rfl⟩
  | viaAttach port p => simp at h
  | busAttach | viaReset | viaShutdown | ctrl1Mode | ctrl2Mode | ramSnapshot => cases h

/-- While halted only the two teardown operations have a step (R271, R272). -/
theorem exec_halted {i : Instr} {s : State} {f : FaultRecord} (hs : s.halt = some f) (hi : i.isTeardown = false) :
    exec i s = .fault (.halted f) := by
  cases ht : i.isTransaction with
  | true =>
    obtain ⟨k, hk⟩ := exec_transaction ht
    rw [hk, transaction_halted hs]
  | false =>
    cases i.kind with
    | viaAttach port p => rw [exec_viaAttach, hostEvent_halted hs]
    | busAttach | viaReset | ctrl1Mode | ctrl2Mode => exact hostEvent_halted hs _
    | viaShutdown | ramSnapshot => cases hi
    | viaRead | viaWrite => simp at ht
    | busRd | busWr | ramRd | ramWr | romRd | romWr | unmappedRd | unmappedWr => cases ht

end Sys2Proof.Machine
end

section
/-! PROOFS. The generic transactions BUS_RD and BUS_WR are their leaf (R107, R135, R136). -/

namespace Sys2Proof

/-- The generic transaction of a BUS word: BUS_RD or BUS_WR with the word's fields (R107). -/
def BusWord.generic (w : BusWord) : Instr := if w.isRead then .busRd w.addr else .busWr w.addr w.data

theorem BusWord.make_generic_read (a : Addr) (d : Byte) : (BusWord.make true a d).generic = .busRd a := by
  simp [BusWord.generic]

theorem BusWord.make_generic_write (a : Addr) (d : Byte) : (BusWord.make false a d).generic = .busWr a d := by
  simp [BusWord.generic]

/-- Decoding an access fails only at an offset the VIA does not have (R62). -/
theorem decodeAccess_error {dev : Device} {read : Bool} {a off : Addr} {d : Byte} {e : DecodeError}
    (h : decodeAccess dev read a off d = .error e) : dev = .via ∧ ¬ off.toNat < Config.viaSize := by
  cases dev with
  | ram | rom => cases read <;> cases h
  | via => exact ⟨rfl, fun hoff => by simp [decodeAccess_via read a off d hoff] at h⟩

/-- An access decodes to a leaf row. -/
theorem decodeAccess_leaf {dev : Device} {read : Bool} {a off : Addr} {d : Byte} {j : Instr}
    (h : decodeAccess dev read a off d = .ok j) : j.isTransaction = true ∧ j.isGeneric = false := by
  cases dev with
  | ram | rom => cases read <;> cases h <;> exact ⟨rfl, rfl⟩
  | via =>
    by_cases hoff : off.toNat < Config.viaSize
    · rw [decodeAccess_via read a off d hoff] at h
      cases read <;> cases h <;> simp
    · simp [decodeAccess, hoff] at h

/-- A BUS word decodes to a leaf row (R107). -/
theorem decodeBus_leaf {m : AddressMap} {w : BusWord} {j : Instr} (h : decodeBus m w = .ok j) :
    j.isTransaction = true ∧ j.isGeneric = false := by
  unfold decodeBus at h
  split at h
  · exact decodeAccess_leaf h
  · cases hr : w.isRead <;> simp only [hr] at h <;> cases h <;> exact ⟨rfl, rfl⟩

end Sys2Proof

namespace Sys2Proof.Machine

/-- The decoded operation of a device access is the device's read or write (R105, R132). -/
theorem exec_decodeAccess {dev : Device} {read : Bool} {a off : Addr} {d : Byte} {j : Instr}
    (h : decodeAccess dev read a off d = .ok j) (s : State) :
    exec j s = transaction s (if read then devRead dev off else devWrite dev a off d) := by
  cases dev with
  | ram | rom => cases read <;> cases h <;> rfl
  | via =>
    by_cases hoff : off.toNat < Config.viaSize
    · rw [decodeAccess_via read a off d hoff] at h
      cases read <;> cases h
      · simpa [exec_viaWrite] using transaction_congr (by simp [devWrite, hoff])
      · simpa [exec_viaRead] using transaction_congr (by simp [devRead, hoff])
    · simp [decodeAccess, hoff] at h

/-- A generic transaction whose address is owned is the owner's read or write (R135, R136). -/
theorem exec_generic_owned {s : State} {w : BusWord} {u : Attachment} (h : s.att.owner w.addr = some u) :
    exec w.generic s = transaction s (if w.isRead then devRead u.dev (u.offset w.addr)
      else devWrite u.dev w.addr (u.offset w.addr) w.data) := by
  cases hr : w.isRead with
  | true => simpa [BusWord.generic, hr, exec_busRd] using transaction_congr (busRead_owned h)
  | false => simpa [BusWord.generic, hr, exec_busWr] using transaction_congr (busWrite_owned h)

/-- BUS_RD and BUS_WR do what the leaf they dispatch to does, in every state and on every map (R107). -/
theorem exec_generic_of_decode {s : State} {w : BusWord} {j : Instr} (h : decodeBus s.att w = .ok j) :
    exec w.generic s = exec j s := by
  cases ho : s.att.owner w.addr with
  | some u =>
    simp only [decodeBus, ho] at h
    rw [exec_generic_owned ho, exec_decodeAccess h]
  | none =>
    simp only [decodeBus, ho] at h
    cases hr : w.isRead <;> simp only [hr] at h <;> cases h
    · simpa [BusWord.generic, hr, exec_busWr, exec_unmappedWr] using transaction_congr (busWrite_unowned ho)
    · simpa [BusWord.generic, hr, exec_busRd, exec_unmappedRd] using transaction_congr (busRead_unowned ho)

/-- A generic transaction that has no leaf answers no next state: the VIA does not have its offset (R199). -/
theorem exec_generic_undecodable {s t : State} {w : BusWord} {e : DecodeError}
    (h : decodeBus s.att w = .error e) : exec w.generic s ≠ .next t := by
  intro ht
  unfold decodeBus at h
  split at h
  · next u ho =>
    obtain ⟨hdev, hoff⟩ := decodeAccess_error h
    rw [exec_generic_owned ho] at ht
    obtain ⟨-, hk⟩ := transaction_next ht
    cases hr : w.isRead <;> simp [hr, devRead, devWrite, hdev, hoff] at hk
  · cases h

theorem leafOf_of_leaf {i : Instr} (h : i.isGeneric = false) (m : AddressMap) : leafOf m i = i := by
  unfold leafOf
  split
  · cases h
  · cases h
  · rfl

/-- An operation whose leaf is a host event is that host event. -/
theorem eq_of_leafOf_eq {m : AddressMap} {i j : Instr} (h : leafOf m i = j) (hj : j.isTransaction = false) :
    i = j := by
  unfold leafOf at h
  split at h
  · split at h
    · next hd => simp [← h, (decodeBus_leaf hd).1] at hj
    · exact h
  · split at h
    · next hd => simp [← h, (decodeBus_leaf hd).1] at hj
    · exact h
  · exact h

/-- The leaf of a generic transaction that answers a next state answers the same. -/
theorem exec_leafOf_generic {s t : State} {w : BusWord} {i : Instr} (hw : w.generic = i)
    (hleaf : ∀ j, decodeBus s.att w = .ok j → leafOf s.att i = j) (h : exec i s = .next t) :
    (leafOf s.att i).isGeneric = false ∧ exec (leafOf s.att i) s = .next t := by
  subst hw
  cases hd : decodeBus s.att w with
  | ok j =>
    rw [hleaf j hd]
    exact ⟨(decodeBus_leaf hd).2, exec_generic_of_decode hd ▸ h⟩
  | error e => exact absurd h (exec_generic_undecodable hd)

/-- An operation that answers a next state has a leaf, which answers the same. -/
theorem exec_leafOf {i : Instr} {s t : State} (h : exec i s = .next t) :
    (leafOf s.att i).isGeneric = false ∧ exec (leafOf s.att i) s = .next t := by
  by_cases hi : i.isGeneric = false
  · rw [leafOf_of_leaf hi]
    exact ⟨hi, h⟩
  · cases i with
    | busRd a =>
      exact exec_leafOf_generic (BusWord.make_generic_read a 0) (fun j hd => by simp only [leafOf, hd]) h
    | busWr a d =>
      exact exec_leafOf_generic (BusWord.make_generic_write a d) (fun j hd => by simp only [leafOf, hd]) h
    | _ => exact absurd rfl hi

end Sys2Proof.Machine
end

section
/-! PROOFS. What an operation that answers a next state has done, said once; and what follows for each field. -/

namespace Sys2Proof.Machine

/-! ## The effects -/

/-- What a leaf operation or host event has done from `s`, if it answers a next state: one case per kind of change
(R20), with the conditions under which the operation makes it. -/
inductive Effect (s : State) : Instr → State → Prop
  /-- Nothing but the answer and the phase: a read of RAM, ROM, DDRx or PCR, a control-mode query, a snapshot, an
  ignored ROM write. -/
  | reported (i : Instr) (ph : Phase) (r : Answer) : Effect s i ((s.withPhase ph).withAnswer r)
  /-- Fault entry (R270), with a cause of R260. -/
  | raised (i : Instr) (ph : Phase) (f : FaultRecord) (hs : s.halt = none) (hf : f.raisedBy i s) :
      Effect s i ((s.withPhase ph).raise f)
  | ramWritten (off : Addr) (d : Byte) (hoff : off.toNat < s.params.ramSize) :
      Effect s (.ramWr off d)
        (((s.withPhase .running).withRam (Memory.write s.ram off.toNat d)).withAnswer .none)
  | portWritten (port : Port) (d : Byte) :
      Effect s (port.writeOp d)
        ((((s.withPhase .running).withVia (s.via.setOut d port)).withWorld
          (portWriteWorld port d s)).withAnswer .none)
  | portRead (port : Port) (r : Answer) :
      Effect s port.readOp
        ((((s.withPhase .running).withVia (s.via.setIn (portInput port s).1 port)).withWorld
          (portInput port s).2).withAnswer r)
  | dirWritten (port : Port) (d : Byte) :
      Effect s (port.dirOp d) (((s.withPhase .running).withVia (s.via.setDir d port)).withAnswer .none)
  | pcrWritten (d : Byte) :
      Effect s (.wrPcr d) (((s.withPhase .running).withVia (s.via.setPcr d)).withAnswer .none)
  | attached (dev : Device) (label : String) (b : Addr) (hs : s.phase = .configuration)
      (hfree : attachFault s.att b (dev.size s.params) = none) :
      Effect s (.busAttach dev label b)
        ((s.withAtt (s.att ++ [⟨b, dev.size s.params, dev, label⟩])).withAnswer .none)
  | plugged (port : Port) (p : Peripheral) (hnew : s.via.attached p.id = false) :
      Effect s (port.attachOp p)
        (((s.withVia (s.via.plug p port)).withWorld
          (s.world.emit (.attachLog port p.name p.mask))).withAnswer .none)
  | viaReset : Effect s .viaReset ((s.withVia s.via.zeroed).withAnswer .none)
  | viaShutdown :
      Effect s .viaShutdown (((s.withWorld (shutdownWorld s)).withPhase .shutDown).withAnswer .none)

/-- A register select other than the five that name a register is unhandled (R203). -/
theorem not_mem_handled {rs : RegSel} (h0 : rs.toNat ≠ 0x0) (h1 : rs.toNat ≠ 0x1) (h2 : rs.toNat ≠ 0x2)
    (h3 : rs.toNat ≠ 0x3) (hC : rs.toNat ≠ 0xC) : rs ∉ [0x0#4, 0x1#4, 0x2#4, 0x3#4, 0xC#4] := by
  simp [← BitVec.toNat_inj, h0, h1, h2, h3, hC]

theorem viaRead_effect {rs : RegSel} {s t : State} (hs : s.halt = none)
    (h : viaRead rs (s.withPhase .running) = .next t) : Effect s (decodeViaRead rs) t := by
  unfold viaRead at h
  split at h
  · next hrs => cases BitVec.eq_of_toNat_eq (y := 0x0#4) hrs; cases h; exact .portRead .b _
  · next hrs => cases BitVec.eq_of_toNat_eq (y := 0x1#4) hrs; cases h; exact .portRead .a _
  · cases h; exact .reported _ .running _
  · cases h; exact .reported _ .running _
  · cases h; exact .reported _ .running _
  · next h0 h1 h2 h3 hC =>
    cases h
    exact .raised _ .running _ hs
      ⟨not_mem_handled h0 h1 h2 h3 hC, leafOf_of_leaf (decodeViaRead_isGeneric rs) _⟩

theorem viaWrite_effect {rs : RegSel} {d : Byte} {s t : State} (hs : s.halt = none)
    (h : viaWrite rs d (s.withPhase .running) = .next t) : Effect s (decodeViaWrite rs d) t := by
  unfold viaWrite at h
  split at h
  · next hrs => cases BitVec.eq_of_toNat_eq (y := 0x0#4) hrs; cases h; exact .portWritten .b d
  · next hrs => cases BitVec.eq_of_toNat_eq (y := 0x1#4) hrs; cases h; exact .portWritten .a d
  · next hrs => cases BitVec.eq_of_toNat_eq (y := 0x2#4) hrs; cases h; exact .dirWritten .b d
  · next hrs => cases BitVec.eq_of_toNat_eq (y := 0x3#4) hrs; cases h; exact .dirWritten .a d
  · next hrs => cases BitVec.eq_of_toNat_eq (y := 0xC#4) hrs; cases h; exact .pcrWritten d
  · next h0 h1 h2 h3 hC =>
    cases h
    exact .raised _ .running _ hs
      ⟨not_mem_handled h0 h1 h2 h3 hC, d, leafOf_of_leaf (decodeViaWrite_isGeneric rs d) _⟩

theorem busAttach_effect {dev : Device} {label : String} {b : Addr} {s t : State}
    (h : exec (.busAttach dev label b) s = .next t) : Effect s (.busAttach dev label b) t := by
  obtain ⟨⟨hs, -⟩, hk⟩ := hostEvent_next h
  obtain ⟨hph, hk⟩ := beforeFirstTransaction_next hk
  obtain ⟨hfree, rfl⟩ | ⟨f, hf, rfl⟩ := attachDevice_next hk
  · exact .attached dev label b hph hfree
  · refine .raised _ s.phase f hs ?_
    obtain ⟨rfl, hsize⟩ | ⟨u, hu, rfl, hover⟩ := attachFault_some hf
    · exact ⟨dev, label, rfl, rfl, hsize⟩
    · simp only [rangesOverlap, Bool.and_eq_true, decide_eq_true_iff] at hover
      exact ⟨dev, label, rfl, rfl, u, hu, rfl, rfl, hover⟩

/-- What a leaf operation or host event that answers a next state has done. -/
theorem exec_effect_of_leaf {i : Instr} {s t : State} (hi : i.isGeneric = false) (h : exec i s = .next t) :
    Effect s i t := by
  cases i.kind with
  | busRd | busWr => cases hi
  | ramRd off =>
    obtain ⟨-, hk⟩ := transaction_next h
    obtain ⟨-, rfl⟩ := ramRead_next hk
    exact .reported _ .running _
  | ramWr off d =>
    obtain ⟨-, hk⟩ := transaction_next h
    obtain ⟨hoff, rfl⟩ := ramWrite_next hk
    exact .ramWritten off d hoff
  | romRd off =>
    obtain ⟨-, hk⟩ := transaction_next h
    obtain ⟨-, rfl⟩ := romRead_next hk
    exact .reported _ .running _
  | romWr a d =>
    obtain ⟨⟨hs, -⟩, hk⟩ := transaction_next h
    obtain ⟨hpol, rfl⟩ | ⟨-, rfl⟩ := romWrite_next hk
    · exact .raised _ .running _ hs ⟨hpol, rfl⟩
    · exact .reported _ .running _
  | unmappedRd a =>
    obtain ⟨⟨hs, -⟩, hk⟩ := transaction_next h
    cases hk
    exact .raised _ .running _ hs rfl
  | unmappedWr a d =>
    obtain ⟨⟨hs, -⟩, hk⟩ := transaction_next h
    cases hk
    exact .raised _ .running _ hs ⟨d, rfl⟩
  | viaRead rs =>
    rw [exec_viaRead] at h
    obtain ⟨⟨hs, -⟩, hk⟩ := transaction_next h
    exact viaRead_effect hs hk
  | viaWrite rs d =>
    rw [exec_viaWrite] at h
    obtain ⟨⟨hs, -⟩, hk⟩ := transaction_next h
    exact viaWrite_effect hs hk
  | busAttach dev label b => exact busAttach_effect h
  | viaAttach port p =>
    rw [exec_viaAttach] at h
    obtain ⟨-, hk⟩ := hostEvent_next h
    obtain ⟨hnew, rfl⟩ := attachPeripheral_next hk
    exact .plugged port p hnew
  | viaReset =>
    obtain ⟨-, hk⟩ := hostEvent_next h
    cases hk
    exact .viaReset
  | viaShutdown =>
    cases h
    exact .viaShutdown
  | ctrl1Mode n =>
    obtain ⟨-, hk⟩ := hostEvent_next h
    obtain ⟨-, rfl⟩ := control1_next hk
    exact .reported _ s.phase _
  | ctrl2Mode n =>
    obtain ⟨-, hk⟩ := hostEvent_next h
    obtain ⟨-, rfl⟩ := control2_next hk
    exact .reported _ s.phase _
  | ramSnapshot =>
    obtain ⟨-, hk⟩ := beforeShutdown_next h
    cases hk
    exact .reported _ s.phase _

/-- What any operation that answers a next state has done: what its leaf does. -/
theorem exec_effect {i : Instr} {s t : State} (h : exec i s = .next t) : Effect s (leafOf s.att i) t :=
  have ⟨hleaf, hexec⟩ := exec_leafOf h
  exec_effect_of_leaf hleaf hexec

/-- What a step that answers a next state has done: nothing, or what its operation's leaf does. -/
theorem step_effect {s t : State} (h : step s = .next t) : t = s ∨ ∃ rest j, Effect (s.withOps rest) j t := by
  obtain ⟨-, rfl⟩ | ⟨r, rest, i, -, -, hexec⟩ := step_next h
  · exact .inl rfl
  · exact .inr ⟨rest, _, exec_effect hexec⟩

/-! ## Which fields an effect changes -/

theorem Effect.params_eq {s t : State} {j : Instr} (h : Effect s j t) : t.params = s.params := by
  cases h <;> rfl

theorem Via.plug_extends (v : Via) (p : Peripheral) (port : Port) :
    v.portA <+: (v.plug p port).portA ∧ v.portB <+: (v.plug p port).portB := by
  cases port <;> simp

/-- Only an attachment changes the two peripheral lists. -/
theorem Effect.ports_cases {s t : State} {j : Instr} (h : Effect s j t) :
    (t.via.portA = s.via.portA ∧ t.via.portB = s.via.portB)
      ∨ ∃ port p, s.via.attached p.id = false ∧ t.via = s.via.plug p port := by
  cases h with
  | plugged port p hnew => exact .inr ⟨port, p, hnew, rfl⟩
  | portWritten port | portRead port | dirWritten port => cases port <;> exact .inl ⟨rfl, rfl⟩
  | reported | raised | ramWritten | pcrWritten | attached | viaReset | viaShutdown => exact .inl ⟨rfl, rfl⟩

/-- Only BUS_ATTACH changes the map, appending a range that passes its checks. -/
theorem Effect.att_cases {s t : State} {j : Instr} (h : Effect s j t) :
    t.att = s.att ∨ ∃ dev label b, attachFault s.att b (dev.size s.params) = none
      ∧ t.att = s.att ++ [⟨b, dev.size s.params, dev, label⟩] := by
  cases h with
  | attached dev label b _ hfree => exact .inr ⟨dev, label, b, hfree, rfl⟩
  | _ => exact .inl rfl

/-- Only RAM_WR changes the RAM, storing one byte within it. -/
theorem Effect.ram_cases {s t : State} {j : Instr} (h : Effect s j t) :
    t.ram = s.ram ∨ ∃ a d, a < s.params.ramSize ∧ t.ram = Memory.write s.ram a d := by
  cases h with
  | ramWritten off d hoff => exact .inr ⟨off.toNat, d, hoff, rfl⟩
  | _ => exact .inl rfl

/-! ## What an effect adds to the trace -/

/-- The trace of the one state is that of the other with new events at its end, each caused by this operation. -/
def TraceGrowsBy (s : State) (j : Instr) (t : State) : Prop :=
  ∃ es, t.world.trace = s.world.trace ++ es ∧ ∀ e ∈ es, Event.causedBy e s.params j

theorem readCalls_causedBy (p : Params) (port : Port) (bs : List Byte) :
    ∀ e ∈ readCalls port bs, Event.causedBy e p port.readOp := by
  intro e he
  obtain ⟨k, hk, rfl⟩ := List.mem_mapIdx.mp he
  cases port <;> rfl

theorem writeCalls_causedBy (p : Params) (port : Port) (d m : Byte) (ps : List Peripheral) :
    ∀ e ∈ writeCalls port m ps, Event.causedBy e p (port.writeOp d) := by
  intro e he
  obtain ⟨k, hk, rfl⟩ := List.mem_mapIdx.mp he
  cases port <;> exact ⟨d, rfl⟩

theorem shutdownCalls_causedBy (p : Params) (port : Port) (oks : List Bool) :
    ∀ e ∈ shutdownCalls port oks, Event.causedBy e p .viaShutdown := by
  intro e he
  obtain ⟨k, hk, rfl⟩ := List.mem_mapIdx.mp he
  rfl

theorem diagLines_causedBy (p : Params) (port : Port) (d : Byte) :
    ∀ e ∈ diagLines p port d, Event.causedBy e p (port.writeOp d) := by
  intro e he
  unfold diagLines at he
  split at he
  · next hdiag =>
    rw [List.mem_singleton.mp he]
    cases port <;> exact ⟨rfl, hdiag⟩
  · cases he

theorem attachLog_causedBy (p : Params) (port : Port) (q : Peripheral) :
    Event.causedBy (.attachLog port q.name q.mask) p (port.attachOp q) := by
  cases port <;> exact ⟨q, rfl, rfl, rfl⟩

/-- VIA_SHUTDOWN adds the calls over port A, then those over port B (R198). -/
theorem shutdownWorld_trace (s : State) : ∃ oksA oksB,
    (shutdownWorld s).trace = s.world.trace ++ (shutdownCalls .a oksA ++ shutdownCalls .b oksB) :=
  ⟨_, _, (congrArg World.trace (shutdownWorld_eq s)).trans (List.append_assoc _ _ _)⟩

theorem Effect.trace_grows {s t : State} {j : Instr} (h : Effect s j t) : TraceGrowsBy s j t := by
  have hquiet {j' : Instr} {t' : State} (ht : t'.world = s.world) : TraceGrowsBy s j' t' :=
    ⟨[], by simp [ht], by simp⟩
  cases h with
  | reported | raised | ramWritten | dirWritten | pcrWritten | attached | viaReset => exact hquiet rfl
  | portWritten port d =>
    refine ⟨_, congrArg World.trace (portWriteWorld_eq port d s), fun e he => ?_⟩
    exact (List.mem_append.mp he).elim (diagLines_causedBy _ _ _ e) (writeCalls_causedBy _ _ _ _ _ e)
  | portRead port =>
    exact ⟨_, congrArg (fun x => x.2.trace) (portInput_eq port s), readCalls_causedBy _ _ _⟩
  | plugged port p =>
    exact ⟨[_], rfl, by simpa using attachLog_causedBy s.params port p⟩
  | viaShutdown =>
    obtain ⟨oksA, oksB, htrace⟩ := shutdownWorld_trace s
    refine ⟨_, htrace, fun e he => ?_⟩
    exact (List.mem_append.mp he).elim (shutdownCalls_causedBy _ _ _ e) (shutdownCalls_causedBy _ _ _ e)

/-! ## Every effect keeps the invariant -/

theorem rangesOverlap_comm (b₁ s₁ b₂ s₂ : Nat) : rangesOverlap b₁ s₁ b₂ s₂ = rangesOverlap b₂ s₂ b₁ s₁ :=
  Bool.and_comm _ _

/-- A range that passes the checks of BUS_ATTACH keeps the map admitted (R131). -/
theorem admitted_append {p : Params} {m : AddressMap} (hm : m.Admitted p) {dev : Device} {label : String} {b : Addr}
    (h : attachFault m b (dev.size p) = none) :
    AddressMap.Admitted p (m ++ [⟨b, dev.size p, dev, label⟩]) := by
  obtain ⟨hrange, hfree⟩ := attachFault_none.mp h
  obtain ⟨hsizes, hdisjoint⟩ := hm
  refine ⟨fun t ht => ?_, ?_⟩
  · rcases List.mem_append.mp ht with ht | ht
    · exact hsizes t ht
    · rw [List.mem_singleton.mp ht]
      exact ⟨rfl, hrange⟩
  · refine List.pairwise_append.mpr ⟨hdisjoint, List.pairwise_singleton _ _, fun t ht u hu => ?_⟩
    rw [List.mem_singleton.mp hu]
    exact (rangesOverlap_comm _ _ _ _).trans (hfree t ht)

theorem Via.attached_eq_false {v : Via} {id : Nat} :
    v.attached id = false ↔ id ∉ (v.portA ++ v.portB).map (fun p => p.id) := by
  simp [Via.attached]

/-- A peripheral on no port yet keeps every peripheral attached once (R229). -/
theorem Via.OnePortEach.plug {v : Via} (hv : v.OnePortEach) {p : Peripheral} (hp : v.attached p.id = false)
    (port : Port) : (v.plug p port).OnePortEach := by
  have hperm : ((v.plug p port).portA ++ (v.plug p port).portB).Perm (p :: (v.portA ++ v.portB)) := by
    cases port with
    | a => simp
    | b => simpa using List.perm_append_comm (l₁ := v.portA ++ v.portB) (l₂ := [p])
  exact (hperm.map _).nodup_iff.mpr (List.nodup_cons.mpr ⟨Via.attached_eq_false.mp hp, hv⟩)

theorem Effect.keeps_inv {s t : State} {j : Instr} (h : Effect s j t) (hs : s.Inv) : t.Inv := by
  obtain ⟨hatt, ⟨hwf, hbelow⟩, hrom, hvia⟩ := hs
  unfold State.Inv
  rw [h.params_eq]
  refine ⟨?_, ?_, hrom, ?_⟩
  · obtain heq | ⟨dev, label, b, hfree, heq⟩ := h.att_cases
    · rwa [heq]
    · rw [heq]
      exact admitted_append hatt hfree
  · obtain heq | ⟨a, d, ha, heq⟩ := h.ram_cases
    · rw [heq]
      exact ⟨hwf, hbelow⟩
    · rw [heq]
      exact ⟨Memory.write_wf hwf a d, Memory.write_below hbelow ha d⟩
  · obtain ⟨hA, hB⟩ | ⟨port, p, hnew, heq⟩ := h.ports_cases
    · rwa [Via.OnePortEach, hA, hB]
    · rw [heq]
      exact hvia.plug hnew port

end Sys2Proof.Machine
end

section
/-! PROOFS. No operation looks at what the input registers hold (R23, R24, R42). -/

namespace Sys2Proof.Machine

/-- A body whose outcome does not depend on what IRA and IRB hold, up to IRA and IRB in the next state. -/
def InputBlind (k : State → Result) : Prop :=
  ∀ s : State, mapNext State.withoutInputs (k s.withoutInputs) = mapNext State.withoutInputs (k s)

theorem InputBlind.beforeShutdown {k : State → Result} (hk : InputBlind k) :
    InputBlind (fun s => beforeShutdown s k) := by
  intro s
  cases hp : s.phase with
  | configuration | running => simpa [Machine.beforeShutdown, State.withoutInputs, hp] using hk s
  | shutDown => simp [Machine.beforeShutdown, State.withoutInputs, hp]

theorem InputBlind.hostEvent {k : State → Result} (hk : InputBlind k) : InputBlind (fun s => hostEvent s k) := by
  intro s
  cases hh : s.halt with
  | some f => simp [Machine.hostEvent, State.withoutInputs, hh]
  | none => simpa [Machine.hostEvent, State.withoutInputs, hh] using hk.beforeShutdown s

theorem InputBlind.transaction {k : State → Result} (hk : InputBlind k) : InputBlind (fun s => transaction s k) :=
  InputBlind.hostEvent fun s => hk (s.withPhase .running)

theorem InputBlind.beforeFirstTransaction {k : State → Result} (hk : InputBlind k) :
    InputBlind (fun s => beforeFirstTransaction s k) := by
  intro s
  cases hp : s.phase with
  | configuration => simpa [Machine.beforeFirstTransaction, State.withoutInputs, hp] using hk s
  | running | shutDown => simp [Machine.beforeFirstTransaction, State.withoutInputs, hp]

/-- A choice by a condition that does not look at the input registers. -/
theorem InputBlind.ite {c : State → Prop} [DecidablePred c] (hc : ∀ s : State, c s.withoutInputs ↔ c s)
    {k k' : State → Result} (hk : InputBlind k) (hk' : InputBlind k') :
    InputBlind (fun s => if c s then k s else k' s) := by
  intro s
  by_cases h : c s
  · simpa [hc, h] using hk s
  · simpa [hc, h] using hk' s

theorem inputBlind_refused (r : Refusal) : InputBlind (fun _ => .refused r) := fun _ => rfl

/-- The VIA's reads and writes look at the input registers at no register select. -/
theorem inputBlind_viaRead (rs : RegSel) : InputBlind (viaRead rs) := by
  intro s
  unfold viaRead
  split <;> rfl

theorem inputBlind_viaWrite (rs : RegSel) (d : Byte) : InputBlind (viaWrite rs d) := by
  intro s
  unfold viaWrite
  split <;> rfl

theorem inputBlind_ramRead (off : Addr) : InputBlind (ramRead off) :=
  .ite (fun _ => Iff.rfl) (fun _ => rfl) (inputBlind_refused _)

theorem inputBlind_ramWrite (off : Addr) (d : Byte) : InputBlind (ramWrite off d) :=
  .ite (fun _ => Iff.rfl) (fun _ => rfl) (inputBlind_refused _)

theorem inputBlind_romRead (off : Addr) : InputBlind (romRead off) :=
  .ite (fun _ => Iff.rfl) (fun _ => rfl) (inputBlind_refused _)

theorem inputBlind_romWrite (a : Addr) (d : Byte) : InputBlind (romWrite a d) := by
  intro s
  cases hp : s.params.romWritePolicy <;> simp only [romWrite, State.withoutInputs, State.withVia_params, hp] <;> rfl

theorem inputBlind_unmapped (a : Addr) (dir : Direction) : InputBlind (unmapped a dir) := fun _ => rfl

theorem inputBlind_attachDevice (dev : Device) (label : String) (b : Addr) :
    InputBlind (attachDevice dev label b) := by
  intro s
  cases hf : attachFault s.att b (dev.size s.params) <;>
    simp only [attachDevice, State.withoutInputs, State.withVia_params, State.withVia_att, hf] <;> rfl

theorem inputBlind_attachPeripheral (port : Port) (p : Peripheral) : InputBlind (attachPeripheral port p) :=
  .ite (fun _ => Iff.rfl) (inputBlind_refused _) (fun s => by cases port <;> rfl)

theorem inputBlind_control1 (n : Nat) : InputBlind (control1 n) :=
  .ite (fun _ => Iff.rfl) (fun _ => rfl) (inputBlind_refused _)

theorem inputBlind_control2 (n : Nat) : InputBlind (control2 n) :=
  .ite (fun _ => Iff.rfl) (fun _ => rfl) (inputBlind_refused _)

theorem inputBlind_devRead (dev : Device) (off : Addr) : InputBlind (devRead dev off) := by
  cases dev with
  | ram => exact inputBlind_ramRead off
  | rom => exact inputBlind_romRead off
  | via => exact .ite (fun _ => Iff.rfl) (inputBlind_viaRead _) (inputBlind_refused _)

theorem inputBlind_devWrite (dev : Device) (a off : Addr) (d : Byte) : InputBlind (devWrite dev a off d) := by
  cases dev with
  | ram => exact inputBlind_ramWrite off d
  | rom => exact inputBlind_romWrite a d
  | via => exact .ite (fun _ => Iff.rfl) (inputBlind_viaWrite _ d) (inputBlind_refused _)

theorem inputBlind_busRead (a : Addr) : InputBlind (busRead a) := by
  intro s
  cases ho : s.att.owner a with
  | some u =>
    rw [busRead_owned ho, busRead_owned (s := s.withoutInputs) ho]
    exact inputBlind_devRead _ _ s
  | none =>
    rw [busRead_unowned ho, busRead_unowned (s := s.withoutInputs) ho]
    exact inputBlind_unmapped _ _ s

theorem inputBlind_busWrite (a : Addr) (d : Byte) : InputBlind (busWrite a d) := by
  intro s
  cases ho : s.att.owner a with
  | some u =>
    rw [busWrite_owned ho, busWrite_owned (s := s.withoutInputs) ho]
    exact inputBlind_devWrite _ _ _ _ s
  | none =>
    rw [busWrite_unowned ho, busWrite_unowned (s := s.withoutInputs) ho]
    exact inputBlind_unmapped _ _ s

theorem inputBlind_exec (i : Instr) : InputBlind (exec i) := by
  cases i.kind with
  | busRd a => exact (inputBlind_busRead a).transaction
  | busWr a d => exact (inputBlind_busWrite a d).transaction
  | ramRd off => exact (inputBlind_ramRead off).transaction
  | ramWr off d => exact (inputBlind_ramWrite off d).transaction
  | romRd off => exact (inputBlind_romRead off).transaction
  | romWr a d => exact (inputBlind_romWrite a d).transaction
  | unmappedRd a => exact (inputBlind_unmapped a .read).transaction
  | unmappedWr a d => exact (inputBlind_unmapped a .write).transaction
  | viaRead rs => exact funext (exec_viaRead rs) ▸ (inputBlind_viaRead rs).transaction
  | viaWrite rs d => exact funext (exec_viaWrite rs d) ▸ (inputBlind_viaWrite rs d).transaction
  | busAttach dev label b => exact (inputBlind_attachDevice dev label b).beforeFirstTransaction.hostEvent
  | viaAttach port p => exact funext (exec_viaAttach port p) ▸ (inputBlind_attachPeripheral port p).hostEvent
  | viaReset => exact InputBlind.hostEvent fun _ => rfl
  | viaShutdown => exact fun _ => rfl
  | ctrl1Mode n => exact (inputBlind_control1 n).hostEvent
  | ctrl2Mode n => exact (inputBlind_control2 n).hostEvent
  | ramSnapshot => exact InputBlind.beforeShutdown fun _ => rfl

end Sys2Proof.Machine
end

section
/-! PROOFS. The single operations of the state's own family: reads of a port, the control modes, the teardown
operations, and the step by its request. -/

namespace Sys2Proof.Machine

/-! ## The step by its request -/

theorem step_of_decode {s : State} {r : Request} {rest : List Request} {i : Instr} (hops : s.ops = r :: rest)
    (hdec : decode s.att r = .ok i) : step s = exec i (s.withOps rest) := by
  simp only [step, fetch, hops, hdec]

theorem step_idle {s : State} (hops : s.ops = []) : step s = .next s := by
  simp only [step, fetch, hops]

theorem step_undecodable {s : State} {r : Request} {rest : List Request} {e : DecodeError} (hops : s.ops = r :: rest)
    (hdec : decode s.att r = .error e) : step s = .refused (.undecodable e) := by
  simp only [step, fetch, hops, hdec]

/-! ## The teardown operations -/

/-- What the two teardown operations leave of any machine, halted or not (R248, R198). -/
theorem exec_teardown_frame {i : Instr} {s t : State} (hi : i.isTeardown = true) (h : exec i s = .next t) :
    t.halt = s.halt ∧ t.via = s.via ∧ t.att = s.att ∧ t.ram = s.ram := by
  cases i with
  | viaShutdown => cases h; exact ⟨rfl, rfl, rfl, rfl⟩
  | ramSnapshot =>
    obtain ⟨-, hk⟩ := beforeShutdown_next h
    cases hk
    exact ⟨rfl, rfl, rfl, rfl⟩
  | _ => cases hi

/-! ## Reads of a port -/

theorem exec_readOp (port : Port) (s : State) : exec port.readOp s = transaction s (portRead port) := by
  cases port <;> rfl

/-- What a port read that answers gives back and keeps (R161, R163). -/
theorem exec_readOp_next {port : Port} {s t : State} (h : exec port.readOp s = .next t) :
    t.answer = .byte (compose (orOfMasked (s.via.peripherals port) (s.portBytes port)) (s.via.outReg port)
        (s.via.dirReg port))
      ∧ t.via.inReg port = orOfMasked (s.via.peripherals port) (s.portBytes port) := by
  rw [exec_readOp] at h
  obtain ⟨-, hk⟩ := transaction_next h
  have hin : (portInput port (s.withPhase .running)).1 = orOfMasked (s.via.peripherals port) (s.portBytes port) :=
    congrArg Prod.fst (portInput_eq port _)
  cases hk
  rw [← hin]
  cases port <;> exact ⟨rfl, rfl⟩

/-- The composed input does not depend on the order of the peripherals with their bytes (R200). -/
theorem orOfMasked_perm {ps qs : List Peripheral} {bs cs : List Byte} (h : (ps.zip bs).Perm (qs.zip cs)) :
    orOfMasked ps bs = orOfMasked qs cs := by
  unfold orOfMasked
  rw [← List.map_uncurry_zip_eq_zipWith, ← List.map_uncurry_zip_eq_zipWith]
  exact (h.map _).foldl_eq' (fun x _ y _ z => by rw [BitVec.or_assoc, BitVec.or_comm x, BitVec.or_assoc]) _

/-- Two reads of a port with the same registers and permuted peripherals agree. -/
theorem readOp_order_irrelevant {port : Port} {s t s' t' : State}
    (hperm : ((s.via.peripherals port).zip (s.portBytes port)).Perm ((t.via.peripherals port).zip (t.portBytes port)))
    (hout : s.via.outReg port = t.via.outReg port) (hdir : s.via.dirReg port = t.via.dirReg port)
    (hs : exec port.readOp s = .next s') (ht : exec port.readOp t = .next t') :
    s'.answer = t'.answer ∧ s'.via.inReg port = t'.via.inReg port := by
  obtain ⟨hsa, hsi⟩ := exec_readOp_next hs
  obtain ⟨hta, hti⟩ := exec_readOp_next ht
  rw [hsa, hsi, hta, hti, orOfMasked_perm hperm, hout, hdir]
  exact ⟨rfl, rfl⟩

/-! ## The control modes -/

theorem exec_ctrl1Mode {s : State} (hs : s.Ready) {n : Nat} (hn : controlOffsetOk n = true) :
    exec (.ctrl1Mode n) s = .next { s with answer := .mode1 (control1Mode s.via.pcr n) } :=
  (hostEvent_ready hs (control1 n)).trans (if_pos hn)

theorem exec_ctrl2Mode {s : State} (hs : s.Ready) {n : Nat} (hn : controlOffsetOk n = true) :
    exec (.ctrl2Mode n) s = .next { s with answer := .mode3 (control2Mode s.via.pcr n) } :=
  (hostEvent_ready hs (control2 n)).trans (if_pos hn)

/-- The four fields cover the PCR (R108). -/
theorem pcr_eq_fields (pcr : Byte) :
    pcr = control2Mode pcr 4 ++ control1Mode pcr 4 ++ control2Mode pcr 0 ++ control1Mode pcr 0 := by
  revert pcr; decide

end Sys2Proof.Machine
end

section
/-! PROOFS. The obligations about the state (10_state). -/

namespace Sys2Proof.Machine

/-- Settles O50: a halted machine has a step only with nothing issued or for a teardown operation, and neither
changes the latch or the block. -/
theorem haltIsSticky : Obligations.HaltIsSticky := by
  intro s t f hs hstep
  obtain ⟨-, rfl⟩ | ⟨r, rest, i, -, -, hexec⟩ := step_next hstep
  · exact ⟨hs, rfl, rfl, rfl⟩
  · cases hi : i.isTeardown with
    | false =>
      have hfault := exec_halted (s := s.withOps rest) hs hi
      rw [hexec] at hfault
      cases hfault
    | true =>
      obtain ⟨hhalt, hvia, hatt, hram⟩ := exec_teardown_frame hi hexec
      exact ⟨hhalt.trans hs, hvia, hatt, hram⟩

/-- Settles O54, by what each effect writes; a leaf that is a host event is the operation itself. -/
theorem onlyItsWritersChangeAField : Obligations.OnlyItsWritersChangeAField := by
  intro s t i hexec
  have heff := exec_effect hexec
  generalize hj : leafOf s.att i = j at heff ⊢
  cases heff with
  | reported | raised | viaShutdown => simp
  | ramWritten off d => simp [Memory.read_write]
  | portWritten port d => cases port <;> simp [Port.writeOp]
  | portRead port => cases port <;> simp [Port.readOp]
  | dirWritten port d => cases port <;> simp [Port.dirOp]
  | pcrWritten d => simp
  | attached dev label b hs => simp [hs, eq_of_leafOf_eq hj rfl]
  | plugged port p =>
    have hi : i = port.attachOp p := eq_of_leafOf_eq hj (port.attachOp_isTransaction p)
    cases port <;> simp [hi, Port.attachOp]
  | viaReset => simp [eq_of_leafOf_eq hj rfl]

/-- Settles O55: an idle step changes nothing, and every effect appends. -/
theorem listsOnlyGrow : Obligations.ListsOnlyGrow := by
  intro s t hstep
  obtain rfl | ⟨rest, j, heff⟩ := step_effect hstep
  · simp
  · have hports : s.via.portA <+: t.via.portA ∧ s.via.portB <+: t.via.portB := by
      obtain ⟨hA, hB⟩ | ⟨port, p, -, hvia⟩ := heff.ports_cases
      · simp [hA, hB]
      · simpa [hvia] using s.via.plug_extends p port
    have hatt : s.att <+: t.att := by
      obtain hatt | ⟨dev, label, b, -, hatt⟩ := heff.att_cases <;> simp [hatt]
    obtain ⟨es, htrace, -⟩ := heff.trace_grows
    exact ⟨hports.1, hports.2, hatt, es, htrace.symm⟩

/-- Settles O56: what an operation's leaf does to the trace. -/
theorem peripheralCallsHaveTheirCause : Obligations.PeripheralCallsHaveTheirCause :=
  fun _ _ _ hexec => (exec_effect hexec).trace_grows

/-- Settles O58: the step takes the same request in both states, and every operation is blind to IRA and IRB. -/
theorem inputRegistersAreNeverObserved : Obligations.InputRegistersAreNeverObserved := by
  intro s
  cases hops : s.ops with
  | nil => rw [step_idle hops, step_idle (s := s.withoutInputs) hops]; rfl
  | cons r rest =>
    cases hdec : decode s.att r with
    | ok i =>
      rw [step_of_decode hops hdec, step_of_decode (s := s.withoutInputs) hops hdec]
      exact inputBlind_exec i (s.withOps rest)
    | error e => rw [step_undecodable hops hdec, step_undecodable (s := s.withoutInputs) hops hdec]

/-- Settles O59: an idle step changes nothing, and every effect keeps the invariant. -/
theorem stepKeepsTheInvariant : Obligations.StepKeepsTheInvariant := by
  intro s t hs hstep
  obtain rfl | ⟨rest, j, heff⟩ := step_effect hstep
  · exact hs
  · exact heff.keeps_inv hs

/-- Settles O20, for port A and port B. -/
theorem peripheralOrderDoesNotChangeTheByte : Obligations.PeripheralOrderDoesNotChangeTheByte :=
  fun _ _ _ _ => ⟨readOp_order_irrelevant (port := .a), readOp_order_irrelevant (port := .b)⟩

/-- Settles O30: the fields are what the four queries extract. -/
theorem controlModesExtractTheFields : Obligations.ControlModesExtractTheFields :=
  fun s hs => ⟨_, _, _, _, pcr_eq_fields s.via.pcr, exec_ctrl1Mode hs rfl, exec_ctrl2Mode hs rfl,
    exec_ctrl1Mode hs rfl, exec_ctrl2Mode hs rfl⟩

/-- Settles O57: no effect of an operation is on the parameters. -/
theorem parametersAreConstant : Obligations.ParametersAreConstant := by
  intro s t hstep
  obtain rfl | ⟨rest, j, heff⟩ := step_effect hstep
  · rfl
  · exact heff.params_eq

/-- Settles O1, by what construction sets (R43). -/
theorem constructionZeroesTheRegisters : Obligations.ConstructionZeroesTheRegisters :=
  fun _ _ => ⟨rfl, rfl, rfl⟩

/-- A newly constructed block with canonical contents meets the invariant. -/
theorem construct_inv {p : Params} {ram : Memory} (hram : Memory.wf ram ∧ Memory.below ram p.ramSize)
    (hrom : Memory.wf p.romImage ∧ Memory.below p.romImage p.romSize) : (State.construct p ram).Inv :=
  ⟨⟨fun _ ht => absurd ht List.not_mem_nil, List.Pairwise.nil⟩, hram, hrom, List.Pairwise.nil⟩

/-- Settles O2: the state after reset is the construction with the default parameters and an empty RAM_INIT. -/
theorem resetMeetsTheInvariant : Obligations.ResetMeetsTheInvariant :=
  ⟨construct_inv (by decide) (by decide), fun _ _ hram hbelow hrom hrombelow =>
    construct_inv ⟨hram, hbelow⟩ ⟨hrom, hrombelow⟩⟩

/-- Settles O5, by the three outcomes of taking the next request. -/
theorem stepRunsTheDecodedOperation : Obligations.StepRunsTheDecodedOperation :=
  fun _ => ⟨fun _ _ _ => step_of_decode, step_idle, fun _ _ _ => step_undecodable⟩

/-- Settles O27: the zeroing is the body of the admitted host event. -/
theorem resetZeroesTheRegisters : Obligations.ResetZeroesTheRegisters :=
  fun _ hs => hostEvent_ready hs resetVia

end Sys2Proof.Machine
end

section
/-! PROOFS. The memory map: who owns an address, and the offset its device is given (20_memory R61 to R70, R134). -/

namespace Sys2Proof

/-! ## The owner on an admitted map -/

/-- On an admitted map no two places of the list own one address (R134). -/
theorem AddressMap.Admitted.owner_index_unique {p : Params} {m : AddressMap} (hm : m.Admitted p) {a : Addr} {j k : Nat}
    (hj : j < m.length) (hk : k < m.length) (hja : m[j].owns a = true) (hka : m[k].owns a = true) : j = k := by
  have hdisjoint := List.pairwise_iff_getElem.mp hm.2
  rcases lt_trichotomy j k with hlt | heq | hgt
  · exact absurd ⟨hja, hka⟩ (Attachment.not_both_own (hdisjoint j k hj hk hlt) a)
  · exact heq
  · exact absurd ⟨hka, hja⟩ (Attachment.not_both_own (hdisjoint k j hk hj hgt) a)

/-- On an admitted map `owner` answers exactly the attachment of the list whose range holds the address (R134). -/
theorem AddressMap.Admitted.owner_eq_some_iff {p : Params} {m : AddressMap} (hm : m.Admitted p) {a : Addr}
    {t : Attachment} : m.owner a = some t ↔ t ∈ m ∧ t.owns a = true :=
  ⟨AddressMap.owner_some, fun ⟨ht, hown⟩ => AddressMap.owner_of_mem hm ht hown⟩

/-- On an admitted map an address the RAM owns is the RAM's offset by its distance from the base (R61, R104). -/
theorem AddressMap.Admitted.ram_offset {p : Params} {m : AddressMap} (hm : m.Admitted p) {a : Addr} {t : Attachment}
    (ho : m.owner a = some t) (hdev : t.dev = .ram) :
    (t.offset a).toNat = a.toNat - t.base.toNat ∧ (t.offset a).toNat < p.ramSize := by
  have hlt := AddressMap.owner_offset_lt hm ho
  rw [hdev] at hlt
  exact ⟨(Attachment.offset_toNat (AddressMap.owner_some ho).2).1, hlt⟩

/-- The local offset is the distance from the base (R61). -/
theorem Attachment.offset_eq_ofNat {t : Attachment} {a : Addr} (h : t.owns a = true) :
    t.offset a = BitVec.ofNat 16 (a.toNat - t.base.toNat) := by
  rw [← (Attachment.offset_toNat h).1, BitVec.ofNat_toNat, BitVec.setWidth_eq]

/-! ## The fixed map (R70, R147) -/

/-- The RAM's attachment in the fixed map. -/
def fixedRam (p : Params) : Attachment := ⟨Config.ramBase, p.ramSize, .ram, "RAM"⟩
/-- The VIA's attachment in the fixed map. -/
def fixedVia : Attachment := ⟨Config.viaBase, Config.viaSize, .via, "VIA"⟩
/-- The ROM's attachment in the fixed map, where there is one. -/
def fixedRom (p : Params) : Attachment := ⟨Config.romBase, p.romSize, .rom, "ROM"⟩

theorem fixedMap_eq (p : Params) :
    fixedMap p = fixedRam p :: fixedVia :: (if p.hasRom then [fixedRom p] else []) := rfl

theorem fixedRam_owns (p : Params) (a : Addr) : (fixedRam p).owns a = true ↔ a.toNat < p.ramSize := by
  simp [Attachment.owns_iff, fixedRam, Config.ramBase]

theorem fixedVia_owns (a : Addr) : fixedVia.owns a = true ↔ 0xC000 ≤ a.toNat ∧ a.toNat ≤ 0xC00F := by
  simp only [Attachment.owns_iff, fixedVia, Config.viaBase, Config.viaSize, BitVec.reduceToNat]
  omega

theorem fixedRom_owns (p : Params) (a : Addr) :
    (fixedRom p).owns a = true ↔ 0xE000 ≤ a.toNat ∧ a.toNat < 0xE000 + p.romSize := by
  simp [Attachment.owns_iff, fixedRom, Config.romBase]

/-- The owner of an address in the fixed map, in the order of R107's lines 2 to 5. -/
theorem fixedMap_owner (p : Params) (a : Addr) :
    (fixedMap p).owner a =
      if (fixedRam p).owns a then some (fixedRam p)
      else if fixedVia.owns a then some fixedVia
      else if p.hasRom ∧ (fixedRom p).owns a then some (fixedRom p)
      else none := by
  rw [fixedMap_eq, AddressMap.owner, List.find?_cons, List.find?_cons]
  cases (fixedRam p).owns a with
  | true => simp
  | false =>
    cases fixedVia.owns a with
    | true => simp
    | false => cases p.hasRom <;> simp [List.find?_singleton]

/-- An access to the RAM in the fixed map has the address for its offset (R104). -/
theorem decodeAccess_fixedRam {p : Params} (read : Bool) {a : Addr} (d : Byte) (h : (fixedRam p).owns a = true) :
    decodeAccess .ram read a ((fixedRam p).offset a) d = .ok (if read then .ramRd a else .ramWr a d) := by
  have hoff : (fixedRam p).offset a = a := (Attachment.offset_eq_ofNat h).trans (by simp [fixedRam, Config.ramBase])
  rw [hoff]
  cases read <;> rfl

/-- An access to the ROM in the fixed map has the distance from 0xE000 for its offset (R104). -/
theorem decodeAccess_fixedRom {p : Params} (read : Bool) {a : Addr} (d : Byte) (h : (fixedRom p).owns a = true) :
    decodeAccess .rom read a ((fixedRom p).offset a) d =
      .ok (if read then .romRd (BitVec.ofNat 16 (a.toNat - 0xE000)) else .romWr a d) := by
  have hoff : (fixedRom p).offset a = BitVec.ofNat 16 (a.toNat - 0xE000) := Attachment.offset_eq_ofNat h
  rw [hoff]
  cases read <;> rfl

/-- An access to the VIA in the fixed map names the register by the distance from 0xC000 (R62, R104). -/
theorem decodeAccess_fixedVia (read : Bool) {a : Addr} (d : Byte) (h : fixedVia.owns a = true) :
    decodeAccess .via read a (fixedVia.offset a) d =
      .ok (if read then decodeViaRead (BitVec.ofNat 4 (a.toNat - 0xC000))
        else decodeViaWrite (BitVec.ofNat 4 (a.toNat - 0xC000)) d) := by
  have hsel : (fixedVia.offset a).extractLsb' 0 4 = BitVec.ofNat 4 (a.toNat - 0xC000) := by
    apply BitVec.eq_of_toNat_eq
    rw [BitVec.extractLsb'_toNat, (Attachment.offset_toNat h).1, BitVec.toNat_ofNat, Nat.shiftRight_zero]
    rfl
  rw [decodeAccess_via _ _ _ _ (Attachment.offset_toNat h).2, hsel]

end Sys2Proof
end

section
/-! PROOFS. The single operations of the memory's own family: RAM through the bus, BUS_ATTACH, fault entry; and the
requests of the start-up. -/

namespace Sys2Proof.Machine

/-! ## RAM through the bus -/

/-- A BUS_RD that the RAM owns answers the byte at the owner's offset, on any admitted map (R135, R137). -/
theorem exec_busRd_ram {s : State} (hm : s.att.Admitted s.params) (hs : s.Ready) {a : Addr} {t : Attachment}
    (ho : s.att.owner a = some t) (hdev : t.dev = .ram) :
    exec (.busRd a) s
      = .next ((s.withPhase .running).withAnswer (.byte (Memory.read s.ram (a.toNat - t.base.toNat)))) := by
  obtain ⟨hoff, hlt⟩ := hm.ram_offset ho hdev
  rw [exec_busRd, transaction_ready hs, busRead_owned (s := s.withPhase .running) ho, hdev, ← hoff]
  exact ramRead_in (s := s.withPhase .running) hlt

/-- A BUS_WR that the RAM owns stores the byte at the owner's offset, on any admitted map (R136, R138). -/
theorem exec_busWr_ram {s : State} (hm : s.att.Admitted s.params) (hs : s.Ready) {a : Addr} {t : Attachment}
    (ho : s.att.owner a = some t) (hdev : t.dev = .ram) (d : Byte) :
    exec (.busWr a d) s
      = .next (((s.withPhase .running).withRam (Memory.write s.ram (a.toNat - t.base.toNat) d)).withAnswer .none) := by
  obtain ⟨hoff, hlt⟩ := hm.ram_offset ho hdev
  rw [exec_busWr, transaction_ready hs, busWrite_owned (s := s.withPhase .running) ho, hdev, ← hoff]
  exact ramWrite_in (s := s.withPhase .running) hlt d

/-! ## BUS_ATTACH before the first transaction -/

theorem State.Configuring.ready {s : State} (hs : s.Configuring) : s.Ready := ⟨hs.1, by simp [hs.2]⟩

/-- In the configuration phase BUS_ATTACH is its checks and their outcome (R131, R144). -/
theorem exec_busAttach {s : State} (hs : s.Configuring) (dev : Device) (label : String) (b : Addr) :
    exec (.busAttach dev label b) s = attachDevice dev label b s := by
  have hphase : beforeFirstTransaction s (attachDevice dev label b) = attachDevice dev label b s := by
    simp [beforeFirstTransaction, hs.2]
  exact (hostEvent_ready hs.ready _).trans hphase

theorem attachDevice_free {s : State} {dev : Device} {b : Addr} (h : attachFault s.att b (dev.size s.params) = none)
    (label : String) :
    attachDevice dev label b s
      = .next ((s.withAtt (s.att ++ [⟨b, dev.size s.params, dev, label⟩])).withAnswer .none) := by
  simp [attachDevice, h, done]

theorem attachDevice_faults {s : State} {dev : Device} {b : Addr} {f : FaultRecord}
    (h : attachFault s.att b (dev.size s.params) = some f) (label : String) :
    attachDevice dev label b s = .next (s.raise f) := by
  simp [attachDevice, h, faulted]

/-! ## Which effects set the latch -/

/-- The only effect that sets the fault latch is fault entry (R269, R270). -/
theorem Effect.raised_of_halt {s t : State} {j : Instr} {f : FaultRecord} (h : Effect s j t) (hs : s.halt = none)
    (ht : t.halt = some f) : f.raisedBy j s ∧ ∃ ph, t = (s.withPhase ph).raise f := by
  cases h with
  | raised _ ph g _ hg =>
    obtain rfl : g = f := by simpa [State.raise, hs] using ht
    exact ⟨hg, ph, rfl⟩
  | _ => exact absurd (hs.symm.trans ht) (by simp)

/-! ## Runs of issued requests -/

/-- Issued these requests in `s`, the machine comes to `t` in as many steps, whatever is issued after them. -/
def Performs (s : State) (q : List Request) (t : State) : Prop :=
  ∀ (k : Nat) (rest : List Request),
    Host.Core.run core (q.length + k) (s.queue (q ++ rest)) = Host.Core.run core k (t.queue rest)

theorem Performs.run_eq {s t : State} {q : List Request} (h : Performs s q t) :
    Host.Core.run core q.length (s.queue q) = .next t := by
  have hdone : t.queue [] = t := by simp [State.queue, State.withOps]
  simpa [hdone, Host.Core.run] using h 0 []

theorem Performs.nil (s : State) : Performs s [] s := fun k rest => by simp

theorem Performs.append {s t u : State} {q r : List Request} (hq : Performs s q t) (hr : Performs t r u) :
    Performs s (q ++ r) u := fun k rest => by
  rw [List.length_append, Nat.add_assoc, List.append_assoc, hq, hr]

/-- One request is performed if its operation takes the one state to the other before any further requests. -/
theorem Performs.single {s t : State} {r : Request} {i : Instr} (hdec : decode s.att r = .ok i)
    (hexec : ∀ rest, exec i (s.queue rest) = .next (t.queue rest)) : Performs s [r] t := fun k rest => by
  have hstep : step (s.queue (r :: rest)) = .next (t.queue rest) :=
    (step_of_decode (s := s.queue (r :: rest)) rfl hdec).trans (hexec rest)
  rw [List.length_singleton, Nat.add_comm]
  exact run_succ_of_next core k hstep

theorem Performs.attachB {s : State} (hs : s.Ready) {p : Peripheral} (hnew : s.via.attached p.id = false) :
    Performs s [.attachB p] (((s.withVia (s.via.plug p .b)).withWorld
      (s.world.emit (.attachLog .b p.name p.mask))).withAnswer .none) :=
  .single (i := .viaAttachB p) rfl fun rest =>
    (hostEvent_ready (s := s.queue rest) hs _).trans (if_neg (by simpa [State.queue] using hnew))

theorem Performs.reset {s : State} (hs : s.Ready) :
    Performs s [.reset] ((s.withVia s.via.zeroed).withAnswer .none) :=
  .single (i := .viaReset) rfl fun rest => hostEvent_ready (s := s.queue rest) hs resetVia

/-- BUS_ATTACH of a range free in the map (R131). -/
theorem Performs.attach {s : State} (hs : s.Configuring) {m : AddressMap} (hatt : s.att = m) {dev : Device}
    {b : Addr} (hfree : attachFault m b (dev.size s.params) = none) (label : String) :
    Performs s [.attach dev label b] ((s.withAtt (m ++ [⟨b, dev.size s.params, dev, label⟩])).withAnswer .none) := by
  subst hatt
  exact .single (i := .busAttach dev label b) rfl fun rest =>
    (exec_busAttach (s := s.queue rest) hs dev label b).trans (attachDevice_free (s := s.queue rest) hfree label)

/-- The state with a display, or none, plugged into port B and logged (R241 step 3, R175). -/
def State.withDisplay (s : State) (display : Option Peripheral) : State :=
  { s with
    via := { s.via with portB := s.via.portB ++ display.toList }
    world := s.world.afterEvents (display.toList.map fun q => .attachLog .b q.name q.mask) }

/-- Each range of the fixed map is free when its turn comes, for sizes within R70's bounds. -/
theorem fixedMap_free {p : Params} (hp : p.FixedMapSizes) :
    attachFault [] Config.ramBase p.ramSize = none
      ∧ attachFault [fixedRam p] Config.viaBase Config.viaSize = none
      ∧ attachFault [fixedRam p, fixedVia] Config.romBase p.romSize = none := by
  obtain ⟨hram, hram', hrom, hrom'⟩ := hp
  simp only [attachFault_none, List.forall_mem_cons, List.not_mem_nil, false_implies, implies_true, and_true,
    rangesOverlap, Bool.and_eq_false_iff, decide_eq_false_iff_not, fixedRam, fixedVia, Config.ramBase,
    Config.viaBase, Config.romBase, Config.viaSize, BitVec.reduceToNat]
  omega

/-- The attachments of the start-up (R241 step 5, R147) build the fixed map on an empty bus. -/
theorem Performs.deviceAttachments {s : State} (hs : s.Configuring) (hatt : s.att = []) (hp : s.params.FixedMapSizes) :
    Performs s
      ([.attach .ram "RAM" Config.ramBase, .attach .via "VIA" Config.viaBase]
        ++ if s.params.hasRom then [.attach .rom "ROM" Config.romBase] else [])
      ((s.withAtt (fixedMap s.params)).withAnswer .none) := by
  obtain ⟨hram, hvia, hrom⟩ := fixedMap_free hp
  have hdevices : Performs s [.attach .ram "RAM" Config.ramBase, .attach .via "VIA" Config.viaBase]
      ((s.withAtt [fixedRam s.params, fixedVia]).withAnswer .none) :=
    (Performs.attach hs hatt (dev := .ram) hram "RAM").append
      (.attach (s := (s.withAtt [fixedRam s.params]).withAnswer .none) hs rfl (dev := .via) hvia "VIA")
  refine hdevices.append ?_
  rw [fixedMap_eq]
  cases s.params.hasRom with
  | false => exact .nil _
  | true =>
    exact .attach (s := (s.withAtt [fixedRam s.params, fixedVia]).withAnswer .none) hs rfl (dev := .rom) hrom "ROM"

end Sys2Proof.Machine
end

section
/-! PROOFS. The obligations about the memory (20_memory). -/

namespace Sys2Proof.Machine

/-- Settles O52: an operation that sets the latch has done what its leaf does, which is fault entry. -/
theorem faultsChangeNothingElse : Obligations.FaultsChangeNothingElse := by
  intro s t i f hexec hs ht
  obtain ⟨-, ph, rfl⟩ := (exec_effect hexec).raised_of_halt hs ht
  exact State.raise_eq (s := s.withPhase ph) hs f

/-- Settles O9: the word decodes by the owner of its address, which the fixed map gives line by line. -/
theorem fixedMapDecisionList : Obligations.FixedMapDecisionList := by
  intro p rw a d _
  simp only [decode_make, fixedMap_owner, ← fixedRam_owns, ← fixedVia_owns, ← fixedRom_owns]
  by_cases hram : (fixedRam p).owns a
  · simp only [if_pos hram]
    exact decodeAccess_fixedRam rw d hram
  · by_cases hvia : fixedVia.owns a
    · simp only [if_neg hram, if_pos hvia]
      exact decodeAccess_fixedVia rw d hvia
    · by_cases hrom : p.hasRom = true ∧ (fixedRom p).owns a
      · simp only [if_neg hram, if_neg hvia, if_pos hrom]
        exact decodeAccess_fixedRom rw d hrom.2
      · simp only [if_neg hram, if_neg hvia, if_neg hrom]

/-- Settles O10: disjoint ranges share no address. -/
theorem oneOwnerPerAddress : Obligations.OneOwnerPerAddress :=
  fun _ _ a hm => ⟨fun _ _ => hm.owner_index_unique, fun t => by rw [hm.owner_eq_some_iff, t.owns_iff a]⟩

/-- Settles O41: both addresses are offsets of the one RAM, and the write changes the byte at its own offset only. -/
theorem ramReturnsTheLastWrite : Obligations.RamReturnsTheLastWrite := by
  intro s a b d t u hm hs hat htram hbu huram
  have hwrite := exec_busWr_ram hm hs hat htram d
  have hread := exec_busRd_ram (s := ((s.withPhase .running).withRam
    (Memory.write s.ram (a.toNat - t.base.toNat) d)).withAnswer .none) hm ⟨hs.1, nofun⟩ hbu huram
  refine ⟨_, _, _, hwrite, hread, exec_busRd_ram hm hs hbu huram, ?_⟩
  simp [Memory.read_write, apply_ite Answer.byte]

/-- Settles O43: the range is checked before any overlap is looked for. -/
theorem attachOutsideTheSpaceFaults : Obligations.AttachOutsideTheSpaceFaults := by
  intro s dev label b hs hrange
  have hfault : attachFault s.att b (dev.size s.params) = some (.configRange b (dev.size s.params)) := if_pos hrange
  rw [exec_busAttach hs, attachDevice_faults hfault, State.raise_eq hs.1]

/-- Settles O46: the display is plugged, the registers are zero already, and each device finds its range free. -/
theorem startupBuildsTheFixedMap : Obligations.StartupBuildsTheFixedMap := by
  intro p ram display hsizes
  have hdisplay : Performs (State.construct p ram) (display.map Request.attachB).toList
      ((State.construct p ram).withDisplay display) := by
    cases display with
    | none => exact .nil _
    | some q => exact .attachB (State.Configuring.ready ⟨rfl, rfl⟩) rfl
  have hready : ((State.construct p ram).withDisplay display).Ready := State.Configuring.ready ⟨rfl, rfl⟩
  have hmap := Performs.deviceAttachments (s := (State.construct p ram).withDisplay display) ⟨rfl, rfl⟩ rfl hsizes
  rw [startup, List.append_assoc]
  exact (hdisplay.append ((Performs.reset hready).append hmap)).run_eq

end Sys2Proof.Machine
end

section
/-! PROOFS. The encodings: a BUS word decodes to a well-formed leaf row, and an encoding decodes back (30_encoding R100
to R107). -/

namespace Sys2Proof

/-! ## The rows of the VIA's register map (R100) -/

@[simp] theorem decodeViaRead_wellFormed (p : Params) (m : AddressMap) (rs : RegSel) :
    (decodeViaRead rs).wellFormed p m = true := by
  unfold decodeViaRead; split <;> rfl

@[simp] theorem decodeViaWrite_wellFormed (p : Params) (m : AddressMap) (rs : RegSel) (d : Byte) :
    (decodeViaWrite rs d).wellFormed p m = true := by
  unfold decodeViaWrite; split <;> rfl

theorem encode_viaRead (m : AddressMap) (rs : RegSel) :
    encode m (decodeViaRead rs) = encodeAt m .via true (rs.setWidth 16) 0 := by
  obtain ⟨⟨n, hn⟩⟩ := rs
  interval_cases n <;> rfl

theorem encode_viaWrite (m : AddressMap) (rs : RegSel) (d : Byte) :
    encode m (decodeViaWrite rs d) = encodeAt m .via false (rs.setWidth 16) d := by
  obtain ⟨⟨n, hn⟩⟩ := rs
  interval_cases n <;> rfl

/-- A register select is an offset the VIA has. -/
theorem regSel_offset_lt (rs : RegSel) : (rs.setWidth 16 : Addr).toNat < Config.viaSize := by
  rw [BitVec.toNat_setWidth_of_le (by decide)]
  exact rs.isLt

/-- An access to the VIA at the offset of a register select is that register's row (R104, R105). -/
theorem decodeAccess_regSel (read : Bool) (a : Addr) (rs : RegSel) (d : Byte) :
    decodeAccess .via read a (rs.setWidth 16) d = .ok (if read then decodeViaRead rs else decodeViaWrite rs d) := by
  have hsel : (rs.setWidth 16 : Addr).extractLsb' 0 4 = rs := by
    apply BitVec.eq_of_toNat_eq
    rw [BitVec.extractLsb'_toNat, BitVec.toNat_setWidth_of_le (by decide), Nat.shiftRight_zero,
      Nat.mod_eq_of_lt rs.isLt]
  rw [decodeAccess_via _ _ _ _ (regSel_offset_lt rs), hsel]

/-! ## Decoding on an admitted map -/

/-- An access at an offset its device has decodes to a well-formed operation; a ROM write is well formed where the ROM
owns its address. -/
theorem decodeAccess_wellFormed {p : Params} {m : AddressMap} {dev : Device} {read : Bool} {a off : Addr} {d : Byte}
    {i : Instr} (hoff : off.toNat < dev.size p) (hrom : dev = .rom → m.romOwns a = true)
    (h : decodeAccess dev read a off d = .ok i) : i.wellFormed p m = true := by
  cases dev with
  | ram => cases read <;> cases h <;> exact decide_eq_true hoff
  | rom =>
    cases read <;> cases h
    · exact hrom rfl
    · exact decide_eq_true hoff
  | via =>
    rw [decodeAccess_via read a off d hoff] at h
    cases read <;> cases h <;> simp

/-- On an admitted map a BUS word decodes to a well-formed operation (R107, R112): the owner gives its device an offset
the device has. -/
theorem AddressMap.Admitted.decodeBus_wellFormed {p : Params} {m : AddressMap} (hm : m.Admitted p) (w : BusWord) :
    ∃ i, decodeBus m w = .ok i ∧ i.wellFormed p m = true := by
  cases ho : m.owner w.addr with
  | none =>
    simp only [decodeBus, ho]
    cases w.isRead <;> exact ⟨_, rfl, by simp [Instr.wellFormed, ho]⟩
  | some t =>
    have hoff := AddressMap.owner_offset_lt hm ho
    simp only [decodeBus, ho]
    cases hd : decodeAccess t.dev w.isRead w.addr (t.offset w.addr) w.data with
    | ok i => exact ⟨i, rfl, decodeAccess_wellFormed hoff (fun hdev => by simp [AddressMap.romOwns, ho, hdev]) hd⟩
    | error e =>
      obtain ⟨hdev, hno⟩ := decodeAccess_error hd
      rw [hdev] at hoff
      exact absurd hoff hno

/-! ## Encoding on an admitted map -/

/-- The base plus an offset below the size is in the range, where the range does not pass the end of the space. -/
theorem Attachment.owns_base_add {t : Attachment} {off : Addr} (hoff : off.toNat < t.size)
    (hlimit : t.limit ≤ 0x10000) : t.owns (t.base + off) = true := by
  unfold Attachment.limit at hlimit
  rw [Attachment.owns_iff, BitVec.toNat_add]
  omega

@[simp] theorem Attachment.offset_base_add (t : Attachment) (off : Addr) : t.offset (t.base + off) = off := by
  rw [Attachment.offset, BitVec.add_comm, BitVec.add_sub_cancel]

/-- What is encoded at an offset of a device decodes as an access to that device at that offset (R104, R148). -/
theorem AddressMap.Admitted.decode_encodeAt {p : Params} {m : AddressMap} (hm : m.Admitted p) {dev : Device}
    {read : Bool} {off : Addr} {d : Byte} {r : Request} (h : encodeAt m dev read off d = some r)
    (hoff : off.toNat < dev.size p) : ∃ a, decode m r = decodeAccess dev read a off d := by
  obtain ⟨b, hb, rfl⟩ := Option.map_eq_some_iff.mp h
  obtain ⟨t, ht, rfl⟩ := Option.map_eq_some_iff.mp hb
  have hmem : t ∈ m := List.mem_of_find?_eq_some ht
  obtain rfl : t.dev = dev := by simpa using List.find?_some ht
  obtain ⟨hsize, -, hlimit⟩ := hm.1 t hmem
  have hown : m.owner (t.base + off) = some t :=
    AddressMap.owner_of_mem hm hmem (Attachment.owns_base_add (hsize ▸ hoff) hlimit)
  exact ⟨t.base + off, by simp [decode_make, hown]⟩

/-- On an admitted map the encoding of a well-formed operation other than the generic rows decodes to it. -/
theorem AddressMap.Admitted.decode_encode {p : Params} {m : AddressMap} (hm : m.Admitted p) {i : Instr} {r : Request}
    (hleaf : i.isGeneric = false) (hwf : i.wellFormed p m = true) (h : encode m i = some r) : decode m r = .ok i := by
  cases i.kind with
  | busRd | busWr => cases hleaf
  | ramRd off | ramWr off d | romRd off =>
    obtain ⟨a, ha⟩ := hm.decode_encodeAt h (of_decide_eq_true hwf)
    exact ha
  | viaRead rs =>
    obtain ⟨a, ha⟩ := hm.decode_encodeAt (encode_viaRead m rs ▸ h) (regSel_offset_lt rs)
    exact ha.trans (decodeAccess_regSel true a rs 0)
  | viaWrite rs d =>
    obtain ⟨a, ha⟩ := hm.decode_encodeAt (encode_viaWrite m rs d ▸ h) (regSel_offset_lt rs)
    exact ha.trans (decodeAccess_regSel false a rs d)
  | romWr a d =>
    obtain rfl := Option.some.inj h
    obtain ⟨t, ho, hdev⟩ : ∃ t, m.owner a = some t ∧ t.dev = .rom := by
      simp only [Instr.wellFormed, AddressMap.romOwns] at hwf
      split at hwf
      · next t ho => exact ⟨t, ho, eq_of_beq hwf⟩
      · cases hwf
    simp [decode_make, ho, hdev, decodeAccess]
  | unmappedRd a | unmappedWr a d =>
    obtain rfl := Option.some.inj h
    have ho : m.owner a = none := Option.isNone_iff_eq_none.mp hwf
    simp [decode_make, ho]
  | viaAttach port q => cases port <;> cases h <;> rfl
  | busAttach | viaReset | viaShutdown | ctrl1Mode | ctrl2Mode | ramSnapshot => cases h; rfl

/-! ## Which operations have an encoding -/

/-- On a map that attaches every device every operation has an encoding. -/
theorem encode_total {m : AddressMap} (hbase : ∀ dev, ∃ b, m.baseOf dev = some b) (i : Instr) :
    ∃ r, encode m i = some r := by
  have hat (dev : Device) (read : Bool) (off : Addr) (d : Byte) : ∃ r, encodeAt m dev read off d = some r := by
    obtain ⟨b, hb⟩ := hbase dev
    exact ⟨_, congrArg (Option.map _) hb⟩
  cases i.kind with
  | ramRd | ramWr | romRd => exact hat ..
  | viaRead rs => rw [encode_viaRead]; exact hat ..
  | viaWrite rs d => rw [encode_viaWrite]; exact hat ..
  | viaAttach port q => cases port <;> exact ⟨_, rfl⟩
  | busRd | busWr | romWr | unmappedRd | unmappedWr | busAttach | viaReset | viaShutdown | ctrl1Mode | ctrl2Mode
  | ramSnapshot => exact ⟨_, rfl⟩

/-- With a ROM the fixed map attaches every device (R70, R147). -/
theorem fixedMap_baseOf {p : Params} (hrom : p.hasRom = true) (dev : Device) :
    ∃ b, (fixedMap p).baseOf dev = some b := by
  rw [fixedMap_eq, if_pos hrom]
  cases dev <;> exact ⟨_, rfl⟩

/-- The fixed map is admitted for sizes within R70's bounds: each range is free when its turn comes. -/
theorem fixedMap_admitted {p : Params} (hp : p.FixedMapSizes) : (fixedMap p).Admitted p := by
  obtain ⟨hram, hvia, hrom⟩ := Machine.fixedMap_free hp
  have hempty : AddressMap.Admitted p [] := ⟨nofun, List.Pairwise.nil⟩
  have hdevices : AddressMap.Admitted p [fixedRam p, fixedVia] :=
    Machine.admitted_append (Machine.admitted_append hempty (dev := .ram) hram) (dev := .via) hvia
  rw [fixedMap_eq]
  cases p.hasRom with
  | false => exact hdevices
  | true => exact Machine.admitted_append hdevices (dev := .rom) hrom

end Sys2Proof
end

section
/-! PROOFS. The obligations about the encodings (30_encoding). -/

namespace Sys2Proof.Machine

/-- Settles O7: an encoding on an admitted map decodes back, and the fixed map is one that attaches every device. -/
theorem decodeInvertsEncode : Obligations.DecodeInvertsEncode := by
  refine ⟨fun _ _ _ _ hm hleaf hwf h => hm.decode_encode hleaf hwf h, fun p i hp hrom hleaf hwf => ?_⟩
  obtain ⟨r, hr⟩ := encode_total (fixedMap_baseOf hrom) i
  exact ⟨r, hr, (fixedMap_admitted hp).decode_encode hleaf hwf hr⟩

/-- Settles O8: decoding succeeds well formed, and what it gives is a leaf row. -/
theorem everyBusWordIsALeafRow : Obligations.EveryBusWordIsALeafRow := by
  intro p m w hm
  obtain ⟨i, hdec, hwf⟩ := hm.decodeBus_wellFormed w
  obtain ⟨htrans, hleaf⟩ := decodeBus_leaf hdec
  exact ⟨i, hdec, hwf, hleaf, htrans⟩

/-- Settles O40: both look the owner up and consult the same device. -/
theorem genericTransactionIsItsLeaf : Obligations.GenericTransactionIsItsLeaf :=
  fun _ _ _ hdec => exec_generic_of_decode hdec

/-- Settles O6: the placed request stands at the head of the list, and the step consumes it. -/
theorem placedTableWordRunsNext : Obligations.PlacedTableWordRunsNext := by
  intro s nbits w r i hr hdec
  have hplaced : s.withFetchWord nbits w = issue s r := by simp only [State.withFetchWord, hr]
  rw [hplaced]
  exact step_of_decode (s := issue s r) rfl hdec

/-- Settles O3, word by word. -/
theorem exampleWordsDecode : Obligations.ExampleWordsDecode := by
  unfold Obligations.ExampleWordsDecode
  decide

/-- Settles O4: decoding an event looks at its code and operands only (R103). -/
theorem eventCodesDecode : Obligations.EventCodesDecode :=
  fun _ _ _ _ _ _ => ⟨rfl, rfl, rfl, rfl, rfl, rfl, rfl, rfl⟩

end Sys2Proof.Machine
end

section
/-! PROOFS. The single operations of the Address Bus's own family: the leaf transactions of RAM, ROM and unmapped
addresses, the generic transactions by the owner of their address, and BUS_ATTACH (40_address_bus). -/

namespace Sys2Proof

/-- `owner` answers nothing exactly where no range of the list holds the address (R134). -/
theorem AddressMap.owner_eq_none_iff {m : AddressMap} {a : Addr} :
    m.owner a = none ↔ ∀ t ∈ m, ¬ (t.base.toNat ≤ a.toNat ∧ a.toNat < t.base.toNat + t.size) := by
  simp only [AddressMap.owner, List.find?_eq_none, Attachment.owns_iff]

/-- The register select an access to the VIA names is the distance from the base, modulo 16 (R62, R104). -/
theorem Attachment.regSel_eq_ofNat {t : Attachment} {a : Addr} (h : t.owns a = true) :
    (t.offset a).extractLsb' 0 4 = BitVec.ofNat 4 (a.toNat - t.base.toNat) := by
  apply BitVec.eq_of_toNat_eq
  rw [BitVec.extractLsb'_toNat, (Attachment.offset_toNat h).1, BitVec.toNat_ofNat, Nat.shiftRight_zero]

/-- A BUS word whose address has no owner is UNMAPPED_RD or UNMAPPED_WR (R107, R141, R142). -/
theorem decode_unowned {m : AddressMap} {a : Addr} (ho : m.owner a = none) (read : Bool) (d : Byte) :
    decode m (.bus (BusWord.make read a d)) = .ok (if read then .unmappedRd a else .unmappedWr a d) := by
  rw [decode_make, ho]

/-- A BUS word whose address has an owner is the access to its device at the local offset (R104). -/
theorem decode_owned {m : AddressMap} {a : Addr} {t : Attachment} (ho : m.owner a = some t) (read : Bool) (d : Byte) :
    decode m (.bus (BusWord.make read a d)) = decodeAccess t.dev read a (t.offset a) d := by
  rw [decode_make, ho]

/-- On an admitted map a BUS word whose address the VIA owns is the row of the register at the distance from its base
(R100, R104). -/
theorem AddressMap.Admitted.decode_owned_via {p : Params} {m : AddressMap} (hm : m.Admitted p) {a : Addr}
    {t : Attachment} (ho : m.owner a = some t) (hdev : t.dev = .via) (read : Bool) (d : Byte) :
    decode m (.bus (BusWord.make read a d)) =
      .ok (if read then decodeViaRead (BitVec.ofNat 4 (a.toNat - t.base.toNat))
        else decodeViaWrite (BitVec.ofNat 4 (a.toNat - t.base.toNat)) d) := by
  have hoff : (t.offset a).toNat < t.dev.size p := AddressMap.owner_offset_lt hm ho
  rw [hdev] at hoff
  rw [decode_owned ho, hdev, decodeAccess_via _ _ _ _ hoff, Attachment.regSel_eq_ofNat (AddressMap.owner_some ho).2]

/-- Two ranges share no address exactly if one lies wholly before the other (R133). -/
theorem rangesOverlap_eq_false_iff {b₁ s₁ b₂ s₂ : Nat} :
    rangesOverlap b₁ s₁ b₂ s₂ = false ↔ b₁ + s₁ ≤ b₂ ∨ b₂ + s₂ ≤ b₁ := by
  simp only [rangesOverlap, Bool.and_eq_false_iff, decide_eq_false_iff_not, not_lt]
  exact or_comm

end Sys2Proof

namespace Sys2Proof.Machine

/-! ## The leaf transactions of RAM, ROM and unmapped addresses -/

theorem exec_ramRd {s : State} (hs : s.Ready) {off : Addr} (hoff : off.toNat < s.params.ramSize) :
    exec (.ramRd off) s = .next ((s.withPhase .running).withAnswer (.byte (Memory.read s.ram off.toNat))) :=
  (transaction_ready hs (ramRead off)).trans (ramRead_in (s := s.withPhase .running) hoff)

theorem exec_ramWr {s : State} (hs : s.Ready) {off : Addr} (hoff : off.toNat < s.params.ramSize) (d : Byte) :
    exec (.ramWr off d) s
      = .next (((s.withPhase .running).withRam (Memory.write s.ram off.toNat d)).withAnswer .none) :=
  (transaction_ready hs (ramWrite off d)).trans (ramWrite_in (s := s.withPhase .running) hoff d)

theorem exec_romRd {s : State} (hs : s.Ready) {off : Addr} (hoff : off.toNat < s.params.romSize) :
    exec (.romRd off) s
      = .next ((s.withPhase .running).withAnswer (.byte (Memory.read s.params.romImage off.toNat))) :=
  (transaction_ready hs (romRead off)).trans (romRead_in (s := s.withPhase .running) hoff)

theorem romWrite_of_fault {s : State} (h : s.params.romWritePolicy = .fault) (a : Addr) (d : Byte) :
    romWrite a d s = .next (s.raise (.romWrite a d)) := by
  simp only [romWrite, h, faulted]

theorem romWrite_of_ignore {s : State} (h : s.params.romWritePolicy = .ignore) (a : Addr) (d : Byte) :
    romWrite a d s = .next (s.withAnswer .none) := by
  simp only [romWrite, h, done]

theorem exec_romWr {s : State} (hs : s.Ready) (a : Addr) (d : Byte) :
    exec (.romWr a d) s = romWrite a d (s.withPhase .running) := transaction_ready hs _

/-- An access to an address without an owner latches the fault and does nothing else (R141, R142). -/
theorem transaction_unmapped {s : State} (hs : s.Ready) (a : Addr) (dir : Direction) :
    transaction s (unmapped a dir)
      = .next { s with halt := some (.unmappedAccess a dir), phase := .running, answer := .none } :=
  (transaction_ready hs _).trans (congrArg _ (State.raise_eq (s := s.withPhase .running) hs.1 _))

/-! ## The generic transactions by the owner of their address -/

/-- BUS_RD is the operation its word decodes to (R107, R135). -/
theorem exec_busRd_of_decode {s : State} {a : Addr} {j : Instr}
    (h : decode s.att (.bus (BusWord.make true a 0)) = .ok j) : exec (.busRd a) s = exec j s := by
  rw [← BusWord.make_generic_read a 0]
  exact exec_generic_of_decode h

/-- BUS_WR is the operation its word decodes to (R107, R136). -/
theorem exec_busWr_of_decode {s : State} {a : Addr} {d : Byte} {j : Instr}
    (h : decode s.att (.bus (BusWord.make false a d)) = .ok j) : exec (.busWr a d) s = exec j s := by
  rw [← BusWord.make_generic_write a d]
  exact exec_generic_of_decode h

/-- A BUS_RD that the ROM owns answers the image's byte at the owner's offset, on any admitted map (R135, R139). -/
theorem exec_busRd_rom {s : State} (hm : s.att.Admitted s.params) (hs : s.Ready) {a : Addr} {t : Attachment}
    (ho : s.att.owner a = some t) (hdev : t.dev = .rom) :
    exec (.busRd a) s = .next ((s.withPhase .running).withAnswer
      (.byte (Memory.read s.params.romImage (a.toNat - t.base.toNat)))) := by
  have hlt := AddressMap.owner_offset_lt hm ho
  rw [hdev] at hlt
  have hdec : decode s.att (.bus (BusWord.make true a 0)) = .ok (.romRd (t.offset a)) := by
    rw [decode_owned ho, hdev, decodeAccess]
  rw [exec_busRd_of_decode hdec, exec_romRd hs hlt, (Attachment.offset_toNat (AddressMap.owner_some ho).2).1]

/-! ## What completes -/

/-- Every VIA read completes, with a byte unless it faults (R100, R203). -/
theorem viaRead_completes (rs : RegSel) (s : State) :
    ∃ u, viaRead rs s = .next u ∧ (u.halt = none → ∃ b, u.answer = .byte b) := by
  unfold viaRead
  split
  · exact ⟨_, rfl, fun _ => ⟨_, rfl⟩⟩
  · exact ⟨_, rfl, fun _ => ⟨_, rfl⟩⟩
  · exact ⟨_, rfl, fun _ => ⟨_, rfl⟩⟩
  · exact ⟨_, rfl, fun _ => ⟨_, rfl⟩⟩
  · exact ⟨_, rfl, fun _ => ⟨_, rfl⟩⟩
  · exact ⟨_, rfl, nofun⟩

/-- Every VIA write completes without a result (R100, R203). -/
theorem viaWrite_completes (rs : RegSel) (d : Byte) (s : State) :
    ∃ u, viaWrite rs d s = .next u ∧ u.answer = .none := by
  unfold viaWrite
  split <;> exact ⟨_, rfl, rfl⟩

/-- Every ROM write completes without a result, under either policy (R140, R264). -/
theorem romWrite_completes (a : Addr) (d : Byte) (s : State) :
    ∃ u, romWrite a d s = .next u ∧ u.answer = .none := by
  unfold romWrite
  split <;> exact ⟨_, rfl, rfl⟩

/-! ## BUS_ATTACH -/

/-- The checks of BUS_ATTACH name the first attachment in list order that shares an address (R131, 92 D7). -/
theorem attachFault_first_overlap {before after : AddressMap} {t : Attachment} {b : Addr} {n : Nat} (hn : 1 ≤ n)
    (hlimit : b.toNat + n ≤ 0x10000)
    (hbefore : ∀ u ∈ before, rangesOverlap b.toNat n u.base.toNat u.size = false)
    (ht : rangesOverlap b.toNat n t.base.toNat t.size = true) :
    attachFault (before ++ t :: after) b n = some (.configOverlap b n t.base t.size) := by
  have hrange : ¬ (n = 0 ∨ 0x10000 < b.toNat + n) := by omega
  have hfree : before.find? (fun u => rangesOverlap b.toNat n u.base.toNat u.size) = none :=
    List.find?_eq_none.mpr fun u hu => by simp [hbefore u hu]
  simp [attachFault, hrange, List.find?_append, hfree, ht]

/-- After the first transaction BUS_ATTACH is refused (R144, 92 D25). -/
theorem exec_busAttach_running {s : State} (hs : s.halt = none) (hph : s.phase = .running) (dev : Device)
    (label : String) (b : Addr) : exec (.busAttach dev label b) s = .refused .attachAfterStart := by
  have hrefused : beforeFirstTransaction s (attachDevice dev label b) = .refused .attachAfterStart := by
    simp only [beforeFirstTransaction, hph]
  exact (hostEvent_ready ⟨hs, by simp [hph]⟩ _).trans hrefused

/-- BUS_ATTACH of a range that the checks turn away, among issued requests (R131). -/
theorem Performs.attachFaults {s : State} (hs : s.Configuring) {m : AddressMap} (hatt : s.att = m) {dev : Device}
    {b : Addr} {f : FaultRecord} (hfault : attachFault m b (dev.size s.params) = some f) (label : String) :
    Performs s [.attach dev label b] (s.raise f) := by
  subst hatt
  exact .single (i := .busAttach dev label b) rfl fun rest =>
    (exec_busAttach (s := s.queue rest) hs dev label b).trans (attachDevice_faults (s := s.queue rest) hfault label)

/-- A run that comes to a halted machine stops at the next request, unless that is a teardown operation (R271). -/
theorem Performs.run_halted {s t : State} {q : List Request} (h : Performs s q t) {f : FaultRecord}
    (ht : t.halt = some f) {r : Request} {i : Instr} (hdec : decode t.att r = .ok i) (hi : i.isTeardown = false) :
    Host.Core.run core (q.length + 1) (s.queue (q ++ [r])) = .fault (.halted f) := by
  have hstep : core.step (t.queue [r]) = .fault (.halted f) :=
    (step_of_decode (s := t.queue [r]) rfl hdec).trans (exec_halted ht hi)
  rw [h 1 [r]]
  simp only [Host.Core.run, hstep]

/-- A RAM longer than 0xC000 bytes leaves no room for the VIA at its base (R131, R147). -/
theorem oversizedRam_overlaps_via {p : Params} (hram : 0xC000 < p.ramSize) :
    attachFault [fixedRam p] Config.viaBase Config.viaSize = some (.configOverlap 0xC000 16 0x0000 p.ramSize) :=
  attachFault_first_overlap (before := []) (by decide) (by decide) nofun
    (by simpa [rangesOverlap, fixedRam, Config.viaBase, Config.viaSize, Config.ramBase] using hram)

/-! ## The cause of a fault -/

/-- A record whose cause is the leaf of an operation has the operation for its cause (R107, R260). -/
theorem FaultRecord.raisedBy_of_leafOf {f : FaultRecord} {i : Instr} {s : State}
    (hleaf : (leafOf s.att i).isGeneric = false) (h : f.raisedBy (leafOf s.att i) s) : f.raisedBy i s := by
  have hidem : leafOf s.att (leafOf s.att i) = leafOf s.att i := leafOf_of_leaf hleaf _
  cases f with
  | configOverlap | configRange =>
    obtain ⟨dev, label, hi, hcause⟩ := h
    exact ⟨dev, label, eq_of_leafOf_eq hi rfl, hcause⟩
  | configRomLoad => exact h
  | unmappedAccess a dir | viaUnhandledRegister rs dir =>
    cases dir <;> simpa only [FaultRecord.raisedBy, hidem] using h
  | romWrite a d => simpa only [FaultRecord.raisedBy, hidem] using h

end Sys2Proof.Machine
end

section
/-! PROOFS. The obligations about the Address Bus (40_address_bus). -/

namespace Sys2Proof.Machine

/-- Settles O53: an operation that sets the latch has done what its leaf does, which is fault entry with a cause. -/
theorem faultLatchNamesItsCause : Obligations.FaultLatchNamesItsCause := by
  intro s t i f hexec hs ht
  obtain ⟨hleaf, hexec⟩ := exec_leafOf hexec
  exact FaultRecord.raisedBy_of_leafOf hleaf ((exec_effect_of_leaf hleaf hexec).raised_of_halt hs ht).1

/-- Settles O33: the byte is the RAM's own, and an address below RAM_SIZE is the first line of R107's list. -/
theorem ramReadReturnsTheByte : Obligations.RamReadReturnsTheByte :=
  ⟨fun _ _ hs hoff => exec_ramRd hs hoff,
    fun p a d hp ha => (fixedMapDecisionList p true a d hp).trans (congrArg Except.ok (if_pos ha))⟩

/-- Settles O34: a read after the write differs at the one offset only. -/
theorem ramWriteStoresOneByte : Obligations.RamWriteStoresOneByte :=
  ⟨fun s off d hs hoff => ⟨Memory.write s.ram off.toNat d, exec_ramWr hs hoff d, by simp [Memory.read_write],
      fun o ho => by simp [Memory.read_write, ho]⟩,
    fun p a d hp ha => (fixedMapDecisionList p false a d hp).trans (congrArg Except.ok (if_pos ha))⟩

/-- Settles O35: the ROM's range lies above those of RAM and VIA, and its offset is the distance from the base. -/
theorem romReadReturnsTheImage : Obligations.RomReadReturnsTheImage := by
  refine ⟨fun _ _ hs hoff => exec_romRd hs hoff, fun p a d hp hrom hlow hhigh => ?_⟩
  have hoff : a - 0xE000 = BitVec.ofNat 16 (a.toNat - 0xE000) :=
    Attachment.offset_eq_ofNat ((fixedRom_owns p a).mpr ⟨hlow, hhigh⟩)
  have hram : ¬ a.toNat < p.ramSize := by omega
  have hvia : ¬ (0xC000 ≤ a.toNat ∧ a.toNat ≤ 0xC00F) := by omega
  rw [fixedMapDecisionList p true a d hp, if_neg hram, if_neg hvia, if_pos ⟨hrom, hlow, hhigh⟩, hoff]
  rfl

/-- Settles O37: fault entry with the address, and no owner decodes to the unmapped rows. -/
theorem unmappedAccessFaults : Obligations.UnmappedAccessFaults := by
  intro s a d hs
  refine ⟨transaction_unmapped hs a .read, transaction_unmapped hs a .write, fun m hfree => ?_⟩
  have ho : m.owner a = none := AddressMap.owner_eq_none_iff.mpr hfree
  exact ⟨decode_unowned ho true d, decode_unowned ho false d⟩

/-- Settles O38: by the owner of the address and its device. -/
theorem busReadAnswersAsTheOwner : Obligations.BusReadAnswersAsTheOwner := by
  intro s a hm hs
  have hvia (t : Attachment) (ho : s.att.owner a = some t) (hdev : t.dev = .via) :
      exec (.busRd a) s = exec (decodeViaRead (BitVec.ofNat 4 (a.toNat - t.base.toNat))) s :=
    exec_busRd_of_decode (hm.decode_owned_via ho hdev true 0)
  have hnone (ho : s.att.owner a = none) :=
    (exec_busRd_of_decode (decode_unowned ho true 0)).trans (transaction_unmapped hs a .read)
  refine ⟨?_, fun t => exec_busRd_ram hm hs, fun t => exec_busRd_rom hm hs, hvia, hnone⟩
  cases ho : s.att.owner a with
  | none => exact ⟨_, hnone ho, nofun⟩
  | some t =>
    cases hdev : t.dev with
    | ram => exact ⟨_, exec_busRd_ram hm hs ho hdev, fun _ => ⟨_, rfl⟩⟩
    | rom => exact ⟨_, exec_busRd_rom hm hs ho hdev, fun _ => ⟨_, rfl⟩⟩
    | via =>
      rw [hvia t ho hdev, exec_viaRead, transaction_ready hs]
      exact viaRead_completes _ _

/-- Settles O39: by the owner of the address and its device. -/
theorem busWriteReachesOnlyTheOwner : Obligations.BusWriteReachesOnlyTheOwner := by
  intro s a d hm hs
  have hrom (t : Attachment) (ho : s.att.owner a = some t) (hdev : t.dev = .rom) :
      exec (.busWr a d) s = exec (.romWr a d) s :=
    exec_busWr_of_decode (by rw [decode_owned ho, hdev, decodeAccess])
  have hvia (t : Attachment) (ho : s.att.owner a = some t) (hdev : t.dev = .via) :
      exec (.busWr a d) s = exec (decodeViaWrite (BitVec.ofNat 4 (a.toNat - t.base.toNat)) d) s :=
    exec_busWr_of_decode (hm.decode_owned_via ho hdev false d)
  have hnone (ho : s.att.owner a = none) :=
    (exec_busWr_of_decode (decode_unowned ho false d)).trans (transaction_unmapped hs a .write)
  refine ⟨?_, fun t ho hdev => ⟨_, exec_busWr_ram hm hs ho hdev d, by simp [Memory.read_write],
    fun o hne => by simp [Memory.read_write, hne]⟩, hrom, hvia, hnone⟩
  cases ho : s.att.owner a with
  | none => exact ⟨_, hnone ho, rfl⟩
  | some t =>
    cases hdev : t.dev with
    | ram => exact ⟨_, exec_busWr_ram hm hs ho hdev d, rfl⟩
    | rom =>
      rw [hrom t ho hdev, exec_romWr hs]
      exact romWrite_completes a d _
    | via =>
      rw [hvia t ho hdev, exec_viaWrite, transaction_ready hs]
      exact viaWrite_completes _ d _

/-- Settles O42: a range wholly before or after every other passes the checks. -/
theorem attachAppendsADisjointRange : Obligations.AttachAppendsADisjointRange := by
  intro s dev label b hs hsize hlimit hdisjoint
  have hfree : attachFault s.att b (dev.size s.params) = none :=
    attachFault_none.mpr ⟨⟨hsize, hlimit⟩, fun t ht => rangesOverlap_eq_false_iff.mpr (hdisjoint t ht)⟩
  exact (exec_busAttach hs dev label b).trans (attachDevice_free hfree label)

/-- Settles O44: the search passes over the attachments before the first that shares an address. -/
theorem attachReportsTheFirstOverlap : Obligations.AttachReportsTheFirstOverlap := by
  intro s dev label b before after t hs hatt hsize hlimit hbefore hlow hhigh
  have hover : rangesOverlap b.toNat (dev.size s.params) t.base.toNat t.size = true := by
    simp [rangesOverlap, hlow, hhigh]
  have hfault := attachFault_first_overlap (after := after) hsize hlimit
    (fun u hu => rangesOverlap_eq_false_iff.mpr (hbefore u hu)) hover
  rw [exec_busAttach hs, attachDevice_faults (hatt ▸ hfault), State.raise_eq hs.1]

/-- Settles O47: the reset and the RAM's attachment complete, the VIA's latches the overlap, and then nothing steps. -/
theorem oversizedRamNeverRuns : Obligations.OversizedRamNeverRuns := by
  intro p ram r i hram hlimit hdec hi
  have hfree : attachFault [] Config.ramBase p.ramSize = none :=
    attachFault_none.mpr ⟨⟨by omega, by simpa [Config.ramBase] using hlimit⟩, nofun⟩
  have hreset := Performs.reset (s := State.construct p ram) (State.Configuring.ready ⟨rfl, rfl⟩)
  have hstart := (hreset.append (.attach ⟨rfl, rfl⟩ rfl (dev := .ram) hfree "RAM")).append
    (.attachFaults ⟨rfl, rfl⟩ rfl (dev := .via) (oversizedRam_overlaps_via hram) "VIA")
  exact hstart.run_halted rfl hdec hi

/-- Settles O36, policy by policy. -/
theorem romWriteFollowsThePolicy : Obligations.RomWriteFollowsThePolicy := by
  intro s a d hs
  rw [exec_romWr hs]
  refine ⟨fun hpolicy => ?_, fun hpolicy => ?_⟩
  · rw [romWrite_of_fault (s := s.withPhase .running) hpolicy, State.raise_eq (s := s.withPhase .running) hs.1]
    rfl
  · exact romWrite_of_ignore (s := s.withPhase .running) hpolicy a d

/-- Settles O45: the machine admits host events, and BUS_ATTACH finds the configuration phase over. -/
theorem attachAfterTheFirstTransactionIsRefused : Obligations.AttachAfterTheFirstTransactionIsRefused :=
  fun _ dev label b hs hph => exec_busAttach_running hs hph dev label b

end Sys2Proof.Machine
end

section
/-! PROOFS. The rows of the VIA's register map as words (R100 to R102): the VIA word of a register select, and its BUS
word in the fixed map with any data byte. -/

namespace Sys2Proof

/-- The data byte set into a BUS word that has 0x00 there (R102). -/
theorem BusWord.make_or_data (read : Bool) (a : Addr) (d : Byte) :
    BusWord.make read a 0x00 ||| d.setWidth 25 = BusWord.make read a d := by
  apply BitVec.eq_of_getLsbD_eq
  intro k hk
  simp only [BusWord.make, BitVec.getLsbD_or, BitVec.getLsbD_append, BitVec.getLsbD_setWidth]
  by_cases hdata : k < 8
  · simp [hdata, hk]
  · simp [hdata, BitVec.getLsbD_of_ge d k (by omega)]

/-- The bus address of a register select in the fixed map (R104, R115). -/
def RegSel.address (rs : RegSel) : Addr := Config.viaBase + rs.setWidth 16

/-- In the fixed map the BUS word at a register's address is that register's row (R100, R107). -/
theorem decode_fixedMap_regSel {p : Params} (hp : p.FixedMapSizes) (read : Bool) (rs : RegSel) (d : Byte) :
    decode (fixedMap p) (.bus (BusWord.make read rs.address d))
      = .ok (if read then decodeViaRead rs else decodeViaWrite rs d) := by
  have hown : fixedVia.owns rs.address = true :=
    Attachment.owns_base_add (t := fixedVia) (regSel_offset_lt rs) (by decide)
  have hoff : fixedVia.offset rs.address = rs.setWidth 16 := fixedVia.offset_base_add _
  have hmem : fixedVia ∈ fixedMap p := by simp [fixedMap_eq]
  rw [decode_owned (AddressMap.owner_of_mem (fixedMap_admitted hp) hmem hown), hoff]
  exact decodeAccess_regSel read _ rs d

end Sys2Proof

namespace Sys2Proof.Machine

/-- The row of a register select in either direction (R100). -/
theorem viaRow (read : Bool) (rs : RegSel) :
    ViaRow (ViaWord.make read rs) (BusWord.make read rs.address 0x00)
      (fun d => if read then decodeViaRead rs else decodeViaWrite rs d) := by
  intro d
  refine ⟨by simp [decodeVia], fun p hp => ?_⟩
  rw [BusWord.make_or_data]
  exact decode_fixedMap_regSel hp read rs d

theorem viaRow_write (rs : RegSel) :
    ViaRow (ViaWord.make false rs) (BusWord.make false rs.address 0x00) (decodeViaWrite rs) := viaRow false rs

theorem viaRow_read (rs : RegSel) :
    ViaRow (ViaWord.make true rs) (BusWord.make true rs.address 0x00) (fun _ => decodeViaRead rs) := viaRow true rs

/-- The write row of a register select as a tuple: the select, its VIA word, its BUS word, its operation. -/
def viaWriteRow (rs : RegSel) : RegSel × ViaWord × BusWord × (Byte → Instr) :=
  (rs, ViaWord.make false rs, BusWord.make false rs.address 0x00, decodeViaWrite rs)

/-- The read row of a register select as a tuple. -/
def viaReadRow (rs : RegSel) : RegSel × ViaWord × BusWord × (Byte → Instr) :=
  (rs, ViaWord.make true rs, BusWord.make true rs.address 0x00, fun _ => decodeViaRead rs)

end Sys2Proof.Machine
end

section
/-! PROOFS. The single operations of the VIA's registers: mixed-direction composition, input composition, and the
meaning of each register operation, once for both ports (41_via_registers R160 to R203). -/

namespace Sys2Proof

/-- RD_DDRA or RD_DDRB. -/
def Port.dirReadOp : Port → Instr
  | .a => .rdDdra
  | .b => .rdDdrb

/-- The other port. -/
def Port.other : Port → Port
  | .a => .b
  | .b => .a

/-- The four operations of one port (R160 to R167). -/
def Port.operations (port : Port) (d : Byte) : List Instr :=
  [port.writeOp d, port.readOp, port.dirOp d, port.dirReadOp]

end Sys2Proof

namespace Sys2Proof.Machine

/-! ## Admission after VIA_SHUTDOWN (R198, 92 D16) -/

theorem beforeShutdown_shutDown {s : State} (hp : s.phase = .shutDown) (k : State → Result) :
    beforeShutdown s k = .refused .afterShutdown := by
  simp only [beforeShutdown, hp]

theorem hostEvent_shutDown {s : State} (hs : s.halt = none) (hp : s.phase = .shutDown) (k : State → Result) :
    hostEvent s k = .refused .afterShutdown := by
  simp only [hostEvent, hs, beforeShutdown_shutDown hp]

theorem transaction_shutDown {s : State} (hs : s.halt = none) (hp : s.phase = .shutDown) (k : State → Result) :
    transaction s k = .refused .afterShutdown := hostEvent_shutDown hs hp _

/-! ## Mixed-direction composition (R170) -/

theorem compose_getLsbD (i o d : Byte) {k : Nat} (hk : k < 8) :
    (compose i o d).getLsbD k = if d.getLsbD k then o.getLsbD k else i.getLsbD k := by
  simp only [compose, BitVec.getLsbD_or, BitVec.getLsbD_and, BitVec.getLsbD_not, hk, decide_true, Bool.true_and]
  cases d.getLsbD k <;> simp

/-- No bit is taken from both halves. -/
theorem compose_halves_disjoint (i o d : Byte) : (o &&& d) &&& (i &&& ~~~d) = 0#8 := by
  ext k hk
  cases hd : d[k] <;> simp [hd]

theorem compose_eq_add (i o d : Byte) : compose i o d = (o &&& d) + (i &&& ~~~d) :=
  (BitVec.add_eq_or_of_and_eq_zero _ _ (compose_halves_disjoint i o d)).symm

theorem compose_eq_xor (i o d : Byte) : compose i o d = (o &&& d) ^^^ (i &&& ~~~d) := by
  ext k hk
  cases hd : d[k] <;> simp [compose, hd]

theorem compose_all_input (i o : Byte) : compose i o 0x00 = i :=
  BitVec.eq_of_getLsbD_eq fun k hk => by simp [compose_getLsbD i o _ hk]

theorem compose_all_output (i o : Byte) : compose i o (BitVec.allOnes 8) = o :=
  BitVec.eq_of_getLsbD_eq fun k hk => by rw [compose_getLsbD i o _ hk, BitVec.getLsbD_allOnes, decide_eq_true hk]; rfl

/-- With no input only the driven output bits show (R163 corner case 1). -/
theorem compose_zero_input (o d : Byte) : compose 0x00 o d = o &&& d := by simp [compose]

/-! ## Input composition (R200) -/

/-- What is taken of each peripheral's byte, by its position in the port's list. -/
theorem maskedBytes_eq_mapIdx (ps : List Peripheral) (w : World) :
    List.zipWith (fun p b => b &&& p.mask) ps (w.readsNext ps.length)
      = ps.mapIdx (fun j p => w.readAt j &&& p.mask) := by
  apply List.ext_getElem (by simp)
  intro j h h'
  simp [World.readsNext]

theorem foldl_or_getLsbD (bs : List Byte) (acc : Byte) (k : Nat) :
    (bs.foldl (fun x y => x ||| y) acc).getLsbD k = true
      ↔ acc.getLsbD k = true ∨ ∃ b ∈ bs, b.getLsbD k = true := by
  induction bs generalizing acc with
  | nil => simp
  | cons b bs ih => simp [ih, or_assoc]

/-- A pin of the composed input is 1 exactly if a peripheral wired to it returned 1 there. -/
theorem orOfMasked_getLsbD (ps : List Peripheral) (w : World) (k : Nat) :
    (orOfMasked ps (w.readsNext ps.length)).getLsbD k = true
      ↔ ∃ (j : Nat) (hj : j < ps.length), ps[j].mask.getLsbD k = true ∧ (w.readAt j).getLsbD k = true := by
  simp only [orOfMasked, maskedBytes_eq_mapIdx, foldl_or_getLsbD, List.mem_mapIdx]
  simp [and_comm]

/-- The composed input depends on the bytes inside the masks only. -/
theorem orOfMasked_congr {ps : List Peripheral} {w w' : World}
    (h : ∀ (j : Nat) (hj : j < ps.length), w'.readAt j &&& ps[j].mask = w.readAt j &&& ps[j].mask) :
    orOfMasked ps (w'.readsNext ps.length) = orOfMasked ps (w.readsNext ps.length) := by
  have hmasked : ps.mapIdx (fun j p => w'.readAt j &&& p.mask) = ps.mapIdx (fun j p => w.readAt j &&& p.mask) :=
    List.mapIdx_eq_mapIdx_iff.mpr h
  rw [orOfMasked, orOfMasked, maskedBytes_eq_mapIdx, maskedBytes_eq_mapIdx, hmasked]

theorem orOfMasked_nil (bs : List Byte) : orOfMasked [] bs = 0x00 := rfl

/-- A port without peripherals is given no byte. -/
theorem portBytes_of_empty {s : State} {port : Port} (h : s.via.peripherals port = []) : s.portBytes port = [] := by
  simp [State.portBytes, h, World.readsNext]

/-! ## The registers of a port after a store into one of them -/

@[simp] theorem Via.setDir_dirReg (v : Via) (d : Byte) (port : Port) : (v.setDir d port).dirReg port = d := by
  cases port <;> rfl

@[simp] theorem Via.setDir_outReg (v : Via) (d : Byte) (port : Port) :
    (v.setDir d port).outReg port = v.outReg port := by
  cases port <;> rfl

@[simp] theorem Via.setDir_peripherals (v : Via) (d : Byte) (port : Port) :
    (v.setDir d port).peripherals port = v.peripherals port := by
  cases port <;> rfl

@[simp] theorem Via.setOut_outReg (v : Via) (d : Byte) (port : Port) : (v.setOut d port).outReg port = d := by
  cases port <;> rfl

@[simp] theorem Via.setOut_dirReg (v : Via) (d : Byte) (port : Port) :
    (v.setOut d port).dirReg port = v.dirReg port := by
  cases port <;> rfl

@[simp] theorem Via.setOut_peripherals (v : Via) (d : Byte) (port : Port) :
    (v.setOut d port).peripherals port = v.peripherals port := by
  cases port <;> rfl

/-! ## The operations of a port -/

theorem exec_writeOp (port : Port) (d : Byte) (s : State) :
    exec (port.writeOp d) s = transaction s (portWrite port d) := by
  cases port <;> rfl

theorem exec_dirOp (port : Port) (d : Byte) (s : State) :
    exec (port.dirOp d) s = transaction s (dirWrite port d) := by
  cases port <;> rfl

theorem exec_dirReadOp (port : Port) (s : State) : exec port.dirReadOp s = transaction s (dirRead port) := by
  cases port <;> rfl

theorem exec_writeOp_ready {s : State} (hs : s.Ready) (port : Port) (d : Byte) :
    exec (port.writeOp d) s = .next
      { s with
        via := s.via.setOut d port
        phase := .running
        answer := .none
        world := s.world.afterEvents
          (diagLines s.params port d ++ writeCalls port (d &&& s.via.dirReg port) (s.via.peripherals port)) } := by
  rw [exec_writeOp, transaction_ready hs, portWrite, portWriteWorld_eq]
  rfl

theorem exec_readOp_ready {s : State} (hs : s.Ready) (port : Port) :
    exec port.readOp s = .next
      { s with
        via := s.via.setIn (orOfMasked (s.via.peripherals port) (s.portBytes port)) port
        phase := .running
        answer := .byte (compose (orOfMasked (s.via.peripherals port) (s.portBytes port)) (s.via.outReg port)
          (s.via.dirReg port))
        world := s.world.afterReads (s.via.peripherals port).length (readCalls port (s.portBytes port)) } := by
  rw [exec_readOp, transaction_ready hs, portRead, portInput_eq]
  rfl

theorem exec_dirOp_ready {s : State} (hs : s.Ready) (port : Port) (d : Byte) :
    exec (port.dirOp d) s = .next { s with via := s.via.setDir d port, phase := .running, answer := .none } := by
  rw [exec_dirOp, transaction_ready hs]
  rfl

theorem exec_dirReadOp_ready {s : State} (hs : s.Ready) (port : Port) :
    exec port.dirReadOp s = .next { s with phase := .running, answer := .byte (s.via.dirReg port) } := by
  rw [exec_dirReadOp, transaction_ready hs]
  rfl

theorem exec_wrPcr {s : State} (hs : s.Ready) (d : Byte) :
    exec (.wrPcr d) s = .next { s with via := { s.via with pcr := d }, phase := .running, answer := .none } :=
  transaction_ready hs (pcrWrite d)

theorem exec_rdPcr {s : State} (hs : s.Ready) :
    exec .rdPcr s = .next { s with phase := .running, answer := .byte s.via.pcr } :=
  transaction_ready hs pcrRead

/-! ## What a port read shows -/

/-- After a port read a pin of the input register is the OR of what the peripherals wired to it returned. -/
theorem readOp_pin {port : Port} {s t : State} (k : Nat) (h : exec port.readOp s = .next t) :
    (t.via.inReg port).getLsbD k = true
      ↔ ∃ (j : Nat) (hj : j < (s.via.peripherals port).length),
        (s.via.peripherals port)[j].mask.getLsbD k = true ∧ (s.world.readAt j).getLsbD k = true := by
  rw [(exec_readOp_next h).2]
  exact orOfMasked_getLsbD _ s.world k

/-- The environment's answers as a supplied list gives them, as far as it goes (R226). -/
theorem World.readAt_of_reads (w : World) {bs : List Byte} {j : Nat} (hj : j < bs.length) :
    World.readAt { w with reads := bs } j = bs[j] := by
  simp [World.readAt, hj]

/-- Two environments whose bytes agree inside the masks of a port's peripherals give a read of the port the same VIA
and the same answer (R200, R225). -/
theorem readOp_masked {s : State} (hs : s.Ready) (port : Port) {bs : List Byte}
    (hlen : (s.via.peripherals port).length ≤ bs.length)
    (hbs : ∀ (j : Nat) (h : j < (s.via.peripherals port).length) (h' : j < bs.length),
      bs[j] &&& (s.via.peripherals port)[j].mask = s.world.readAt j &&& (s.via.peripherals port)[j].mask) :
    ∃ t t', exec port.readOp s = .next t
      ∧ exec port.readOp { s with world := { s.world with reads := bs } } = .next t'
      ∧ t'.via = t.via ∧ t'.answer = t.answer := by
  have hin : orOfMasked (s.via.peripherals port)
        (State.portBytes { s with world := { s.world with reads := bs } } port)
      = orOfMasked (s.via.peripherals port) (s.portBytes port) := by
    refine orOfMasked_congr fun j hj => ?_
    rw [World.readAt_of_reads s.world (by omega)]
    exact hbs j hj (by omega)
  refine ⟨_, _, exec_readOp_ready hs port,
    exec_readOp_ready (s := { s with world := { s.world with reads := bs } }) hs port, ?_, ?_⟩
  · exact congrArg (fun b => s.via.setIn b port) hin
  · exact congrArg (fun b => Answer.byte (compose b (s.via.outReg port) (s.via.dirReg port))) hin

/-- What a completed port read answers, and what it adds to the trace. -/
theorem readOp_answers {s : State} (hs : s.Ready) (port : Port) :
    ∃ t, exec port.readOp s = .next t
      ∧ t.answer = .byte (compose (orOfMasked (s.via.peripherals port) (s.portBytes port)) (s.via.outReg port)
          (s.via.dirReg port))
      ∧ t.world.trace = s.world.trace ++ readCalls port (s.portBytes port) :=
  ⟨_, exec_readOp_ready hs port, rfl, rfl⟩

/-- A direction write stores the direction and sends nothing (R164, R166, 92 D15). -/
theorem dirOp_stores {s : State} (hs : s.Ready) (port : Port) (d : Byte) :
    ∃ t, exec (port.dirOp d) s = .next t ∧ t.Ready ∧ t.via = s.via.setDir d port ∧ t.world = s.world :=
  ⟨_, exec_dirOp_ready hs port d, ⟨hs.1, nofun⟩, rfl, rfl⟩

/-- An output write stores the byte. -/
theorem writeOp_stores {s : State} (hs : s.Ready) (port : Port) (d : Byte) :
    ∃ t, exec (port.writeOp d) s = .next t ∧ t.Ready ∧ t.via = s.via.setOut d port :=
  ⟨_, exec_writeOp_ready hs port d, ⟨hs.1, nofun⟩, rfl⟩

/-- A port without peripherals reads back the driven part of what was written to it (R161, R163 corner case 1). -/
theorem readBack_without_peripherals {s : State} (hs : s.Ready) (port : Port) (o d : Byte)
    (hnone : s.via.peripherals port = []) :
    ∃ t u v, exec (port.dirOp d) s = .next t ∧ exec (port.writeOp o) t = .next u
      ∧ exec port.readOp u = .next v ∧ v.answer = .byte (o &&& d) ∧ v.world.trace = u.world.trace := by
  obtain ⟨t, hdir, ht, htvia, -⟩ := dirOp_stores hs port d
  obtain ⟨u, hwrite, hu, huvia⟩ := writeOp_stores ht port o
  obtain ⟨v, hread, hanswer, htrace⟩ := readOp_answers hu port
  have hvia : u.via.peripherals port = [] ∧ u.via.outReg port = o ∧ u.via.dirReg port = d := by
    simp [huvia, htvia, hnone]
  obtain ⟨hempty, hout, hdirection⟩ := hvia
  refine ⟨t, u, v, hdir, hwrite, hread, ?_, ?_⟩
  · rw [hanswer, hempty, hout, hdirection, orOfMasked_nil, compose_zero_input]
  · rw [htrace, portBytes_of_empty hempty]
    exact List.append_nil _

/-- A direction change sends nothing, and the next read of the port mixes by it (R311, 92 D15). -/
theorem direction_change_shows {s : State} (hs : s.Ready) (port : Port) (e : Byte) :
    ∃ t u, exec (port.dirOp e) s = .next t ∧ t.world = s.world ∧ t.via.outReg port = s.via.outReg port
      ∧ exec port.readOp t = .next u
      ∧ u.answer = .byte (compose (orOfMasked (s.via.peripherals port) (s.portBytes port))
        (s.via.outReg port) e) := by
  obtain ⟨t, hdir, ht, hvia, hworld⟩ := dirOp_stores hs port e
  obtain ⟨u, hread, hanswer, -⟩ := readOp_answers ht port
  refine ⟨t, u, hdir, hworld, by simp [hvia], hread, ?_⟩
  simpa [State.portBytes, hvia, hworld] using hanswer

/-! ## The ports are independent -/

/-- The VIA with the registers and the list of one port replaced. -/
def Via.withPort (v : Via) (o i r : Byte) (l : List Peripheral) : Port → Via
  | .a => { v with ora := o, ira := i, ddra := r, portA := l }
  | .b => { v with orb := o, irb := i, ddrb := r, portB := l }

/-- The state with a change made to its VIA. -/
def State.mapVia (f : Via → Via) (s : State) : State := s.withVia (f s.via)

/-- A transaction commutes with a change of the VIA if its body does. -/
theorem transaction_mapVia (f : Via → Via) {k : State → Result}
    (hk : ∀ s : State, k (s.mapVia f) = mapNext (State.mapVia f) (k s)) (s : State) :
    transaction (s.mapVia f) k = mapNext (State.mapVia f) (transaction s k) := by
  cases hh : s.halt with
  | some r => rw [transaction_halted hh, transaction_halted (s := s.mapVia f) hh]; rfl
  | none =>
    by_cases hp : s.phase = .shutDown
    · rw [transaction_shutDown hh hp, transaction_shutDown (s := s.mapVia f) hh hp]; rfl
    · rw [transaction_ready ⟨hh, hp⟩, transaction_ready (s := s.mapVia f) ⟨hh, hp⟩]
      exact hk (s.withPhase .running)

/-- Each of a port's operations commutes with any change of the other port. -/
theorem exec_portOperation_independent (port : Port) (d o i r : Byte) (l : List Peripheral) :
    ∀ op ∈ port.operations d, ∀ s : State,
      exec op (s.mapVia (fun v => v.withPort o i r l port.other))
        = mapNext (State.mapVia (fun v => v.withPort o i r l port.other)) (exec op s) := by
  simp only [Port.operations, List.forall_mem_cons, List.not_mem_nil, false_implies, implies_true, and_true,
    exec_writeOp, exec_readOp, exec_dirOp, exec_dirReadOp]
  cases port <;>
    exact ⟨transaction_mapVia _ fun _ => rfl, transaction_mapVia _ fun _ => rfl, transaction_mapVia _ fun _ => rfl,
      transaction_mapVia _ fun _ => rfl⟩

/-! ## The unhandled register selects (R203) -/

/-- The register selects without a register (R100). -/
def unhandledSelects : List RegSel := [0x4, 0x5, 0x6, 0x7, 0x8, 0x9, 0xA, 0xB, 0xD, 0xE, 0xF]

theorem viaRead_unhandled (s : State) : ∀ rs ∈ unhandledSelects, viaRead rs s = unhandled rs .read s := by
  intro rs hrs
  fin_cases hrs <;> rfl

theorem viaWrite_unhandled (d : Byte) (s : State) :
    ∀ rs ∈ unhandledSelects, viaWrite rs d s = unhandled rs .write s := by
  intro rs hrs
  fin_cases hrs <;> rfl

/-- An access to a register select without a register latches the fault and does nothing else. -/
theorem transaction_unhandled {s : State} (hs : s.Ready) (rs : RegSel) (dir : Direction) :
    transaction s (unhandled rs dir)
      = .next { s with halt := some (.viaUnhandledRegister rs dir), phase := .running, answer := .none } :=
  (transaction_ready hs _).trans (congrArg _ (State.raise_eq (s := s.withPhase .running) hs.1 _))

theorem exec_viaRead_unhandled {s : State} (hs : s.Ready) {rs : RegSel} (hrs : rs ∈ unhandledSelects) :
    exec (decodeViaRead rs) s
      = .next { s with halt := some (.viaUnhandledRegister rs .read), phase := .running, answer := .none } := by
  rw [exec_viaRead, transaction_congr (viaRead_unhandled _ rs hrs), transaction_unhandled hs]

theorem exec_viaWrite_unhandled {s : State} (hs : s.Ready) {rs : RegSel} (hrs : rs ∈ unhandledSelects) (d : Byte) :
    exec (decodeViaWrite rs d) s
      = .next { s with halt := some (.viaUnhandledRegister rs .write), phase := .running, answer := .none } := by
  rw [exec_viaWrite, transaction_congr (viaWrite_unhandled d _ rs hrs), transaction_unhandled hs]

end Sys2Proof.Machine
end

section
/-! PROOFS. The host events on the VIA: attachment, shutdown and the control modes; and what a machine that is shut
down admits (41_via_registers R171 to R175, R198). -/

namespace Sys2Proof.Machine

/-! ## Attachment (R174, R175) -/

theorem Via.attached_eq_true {v : Via} {id : Nat} :
    v.attached id = true ↔ ∃ q ∈ v.portA ++ v.portB, q.id = id := by
  simp only [Via.attached, List.any_eq_true, beq_iff_eq]

theorem exec_attachOp_new {s : State} (hs : s.Ready) (port : Port) {p : Peripheral}
    (hnew : ∀ q ∈ s.via.portA ++ s.via.portB, q.id ≠ p.id) :
    exec (port.attachOp p) s = .next
      { s with
        via := s.via.plug p port
        answer := .none
        world := s.world.afterEvents [.attachLog port p.name p.mask] } := by
  have hfree : ¬ s.via.attached p.id = true := fun h =>
    have ⟨q, hq, hid⟩ := Via.attached_eq_true.mp h
    hnew q hq hid
  rw [exec_viaAttach, hostEvent_ready hs, attachPeripheral, if_neg hfree]
  rfl

theorem exec_attachOp_again {s : State} (hs : s.Ready) (port : Port) {p : Peripheral}
    (hagain : ∃ q ∈ s.via.portA ++ s.via.portB, q.id = p.id) :
    exec (port.attachOp p) s = .refused (.peripheralAttachedTwice p.id) := by
  rw [exec_viaAttach, hostEvent_ready hs, attachPeripheral, if_pos (Via.attached_eq_true.mpr hagain)]

/-! ## Shutdown (R198) -/

/-- Reports after `n` of them are those from position `n` on (R227). -/
theorem World.reportAt_afterReports (w : World) (n k : Nat) (es : List Event) :
    (w.afterReports n es).reportAt k = w.reportAt (n + k) := by
  simp [World.reportAt, World.afterReports, Nat.add_assoc, List.getD_eq_getElem?_getD]

/-- The reports of two ports, one port after the other. -/
theorem World.reportsNext_add (w : World) (n m : Nat) (es : List Event) :
    w.reportsNext (n + m) = w.reportsNext n ++ (w.afterReports n es).reportsNext m := by
  simp [World.reportsNext, List.range_add, World.reportAt_afterReports]

theorem World.afterReports_afterReports (w : World) (n m : Nat) (es es' : List Event) :
    (w.afterReports n es).afterReports m es' = w.afterReports (n + m) (es ++ es') := by
  simp [World.afterReports, Nat.add_assoc]

/-- VIA_SHUTDOWN calls port A on the first reports and port B on those after them. -/
theorem shutdownWorld_eq_reportsNext (s : State) :
    shutdownWorld s = s.world.afterReports (s.via.portA.length + s.via.portB.length)
      (shutdownCalls .a ((s.world.reportsNext (s.via.portA.length + s.via.portB.length)).take s.via.portA.length)
        ++ shutdownCalls .b
          ((s.world.reportsNext (s.via.portA.length + s.via.portB.length)).drop s.via.portA.length)) := by
  rw [shutdownWorld_eq, World.afterReports_afterReports,
    World.reportsNext_add _ _ _ (shutdownCalls .a (s.world.reportsNext s.via.portA.length)),
    List.take_left' (World.reportsNext_length _ _), List.drop_left' (World.reportsNext_length _ _)]

/-! ## The control modes (R172, R173) -/

theorem controlOffsetOk_eq_false {n : Nat} (h0 : n ≠ 0) (h4 : n ≠ 4) : controlOffsetOk n = false := by
  simp [controlOffsetOk, h0, h4]

theorem control1_refused {n : Nat} (hn : controlOffsetOk n = false) (s : State) :
    control1 n s = .refused (.controlOffset n) := by
  simp [control1, hn]

theorem control2_refused {n : Nat} (hn : controlOffsetOk n = false) (s : State) :
    control2 n s = .refused (.controlOffset n) := by
  simp [control2, hn]

/-! ## After VIA_SHUTDOWN (R198, 92 D16) -/

/-- After VIA_SHUTDOWN every operation but VIA_SHUTDOWN is turned away by its first check. -/
theorem exec_shutDown {i : Instr} {s : State} (hs : s.halt = none) (hp : s.phase = .shutDown)
    (hi : i ≠ .viaShutdown) : exec i s = .refused .afterShutdown := by
  cases i.kind with
  | viaRead rs => rw [exec_viaRead, transaction_shutDown hs hp]
  | viaWrite rs d => rw [exec_viaWrite, transaction_shutDown hs hp]
  | viaAttach port p => rw [exec_viaAttach, hostEvent_shutDown hs hp]
  | busRd | busWr | ramRd | ramWr | romRd | romWr | unmappedRd | unmappedWr => exact transaction_shutDown hs hp _
  | busAttach | viaReset | ctrl1Mode | ctrl2Mode => exact hostEvent_shutDown hs hp _
  | ramSnapshot => exact beforeShutdown_shutDown hp _
  | viaShutdown => exact absurd rfl hi

end Sys2Proof.Machine
end

section
/-! PROOFS. The obligations about the VIA's registers (41_via_registers). -/

namespace Sys2Proof.Machine

/-- Settles O11, bit by bit; no bit is taken from both halves, so the OR is their sum and their exclusive OR. -/
theorem composeMixesByDirection : Obligations.ComposeMixesByDirection :=
  fun i o d => ⟨rfl, fun _ hk => compose_getLsbD i o d hk, compose_eq_add i o d, compose_eq_xor i o d,
    compose_all_input i o, compose_all_output i o⟩

/-- Settles O12: the rows of selects 2 and 3, and the store for either port. -/
theorem directionRegistersStore : Obligations.DirectionRegistersStore :=
  ⟨viaRow_write 0x2, viaRow_write 0x3, fun _ d hs => ⟨exec_dirOp_ready hs .b d, exec_dirOp_ready hs .a d⟩⟩

/-- Settles O13: the rows of selects 2 and 3, and the stored byte for either port. -/
theorem directionRegistersReadBack : Obligations.DirectionRegistersReadBack :=
  ⟨viaRow_read 0x2, viaRow_read 0x3, fun _ hs => ⟨exec_dirReadOp_ready hs .b, exec_dirReadOp_ready hs .a⟩⟩

/-- Settles O14: the rows of select 12, the store and the stored byte. -/
theorem controlRegisterStoresAndReadsBack : Obligations.ControlRegisterStoresAndReadsBack :=
  ⟨viaRow_write 0xC, viaRow_read 0xC, fun _ d hs => ⟨exec_wrPcr hs d, exec_rdPcr hs⟩⟩

/-- Settles O15: the row of select 1, and the port write for port A. -/
theorem portAWriteStoresAndFansOut : Obligations.PortAWriteStoresAndFansOut :=
  ⟨viaRow_write 0x1, fun _ d hs => exec_writeOp_ready hs .a d⟩

/-- Settles O16: the row of select 0, and the port write for port B. -/
theorem portBWriteStoresAndFansOut : Obligations.PortBWriteStoresAndFansOut :=
  ⟨viaRow_write 0x0, fun _ d hs => exec_writeOp_ready hs .b d⟩

/-- Settles O17: the row of select 1, and the port read for port A. -/
theorem portAReadComposes : Obligations.PortAReadComposes :=
  ⟨viaRow_read 0x1, fun _ hs => exec_readOp_ready hs .a⟩

/-- Settles O18: the row of select 0, and the port read for port B. -/
theorem portBReadComposes : Obligations.PortBReadComposes :=
  ⟨viaRow_read 0x0, fun _ hs => exec_readOp_ready hs .b⟩

/-- Settles O19, for port A and port B. -/
theorem inputPinIsOrOfWiredPeripherals : Obligations.InputPinIsOrOfWiredPeripherals :=
  fun _ _ k => ⟨readOp_pin (port := .a) k, readOp_pin (port := .b) k⟩

/-- Settles O21, for port A and port B. -/
theorem bitsOutsideTheMaskAreDropped : Obligations.BitsOutsideTheMaskAreDropped :=
  fun _ _ hs => ⟨readOp_masked hs .a, readOp_masked hs .b⟩

/-- Settles O22: each port's operations commute with any change of the other. -/
theorem portsAreIndependent : Obligations.PortsAreIndependent :=
  fun s d o i r l => ⟨fun op hop => exec_portOperation_independent .a d o i r l op hop s,
    fun op hop => exec_portOperation_independent .b d o i r l op hop s⟩

/-- Settles O23, for port A and port B. -/
theorem readBackWithoutPeripherals : Obligations.ReadBackWithoutPeripherals :=
  fun _ o d hs => ⟨readBack_without_peripherals hs .a o d, readBack_without_peripherals hs .b o d⟩

/-- Settles O24, for port A and port B. -/
theorem directionChangeIsNotSent : Obligations.DirectionChangeIsNotSent :=
  fun _ e hs => ⟨direction_change_shows hs .a e, direction_change_shows hs .b e⟩

/-- Settles O25: the eleven rows are those of the unhandled selects, in their order. -/
theorem unhandledRegisterWritesFault : Obligations.UnhandledRegisterWritesFault := by
  intro row (hrow : row ∈ unhandledSelects.map viaWriteRow)
  obtain ⟨rs, hrs, rfl⟩ := List.mem_map.mp hrow
  exact ⟨viaRow_write rs, fun _ d hs => exec_viaWrite_unhandled hs hrs d⟩

/-- Settles O26: the eleven rows are those of the unhandled selects, in their order. -/
theorem unhandledRegisterReadsFault : Obligations.UnhandledRegisterReadsFault := by
  intro row (hrow : row ∈ unhandledSelects.map viaReadRow)
  obtain ⟨rs, hrs, rfl⟩ := List.mem_map.mp hrow
  exact ⟨viaRow_read rs, fun _ _ hs => exec_viaRead_unhandled hs hrs⟩

/-- Settles O28, for port A and port B. -/
theorem peripheralAttachmentAppends : Obligations.PeripheralAttachmentAppends :=
  fun _ _ hs => ⟨fun hnew => ⟨exec_attachOp_new hs .a hnew, exec_attachOp_new hs .b hnew⟩,
    fun hagain => ⟨exec_attachOp_again hs .a hagain, exec_attachOp_again hs .b hagain⟩⟩

/-- Settles O29: the two loops as one list of calls. -/
theorem shutdownCallsEveryPeripheral : Obligations.ShutdownCallsEveryPeripheral := by
  intro s
  rw [← shutdownWorld_eq_reportsNext]
  rfl

/-- Settles O31: the machine admits the query, whose own check refuses the offset. -/
theorem otherControlOffsetsAreRefused : Obligations.OtherControlOffsetsAreRefused := by
  intro s n hs h0 h4
  have hn := controlOffsetOk_eq_false h0 h4
  exact ⟨(hostEvent_ready hs _).trans (control1_refused hn s), (hostEvent_ready hs _).trans (control2_refused hn s)⟩

/-- Settles O51, by the kinds of operation. -/
theorem shutDownMachineRefuses : Obligations.ShutDownMachineRefuses :=
  fun _ _ hs hp hi => exec_shutDown hs hp hi

end Sys2Proof.Machine
end

section
/-! PROOFS. The host's last operations: the snapshot of the RAM, the shutdown, and the teardown made of the two
(43_supervisor_host R246 to R249, 41_via_registers R198). -/

namespace Sys2Proof.Machine

/-! ## RAM_SNAPSHOT (R248) -/

/-- RAM_SNAPSHOT asks for the phase only: a halted machine admits it too (R272). -/
theorem exec_ramSnapshot {s : State} (hs : s.phase ≠ .shutDown) :
    exec .ramSnapshot s = .next (s.withAnswer (.snapshot (Memory.bytes s.ram s.params.ramSize))) :=
  beforeShutdown_eq hs snapshotRam

theorem Performs.snapshot {s : State} (hs : s.phase ≠ .shutDown) :
    Performs s [.snapshot] (s.withAnswer (.snapshot (Memory.bytes s.ram s.params.ramSize))) :=
  .single (i := .ramSnapshot) rfl fun rest => exec_ramSnapshot (s := s.queue rest) hs

/-! ## VIA_SHUTDOWN (R198) -/

/-- The state VIA_SHUTDOWN leaves. -/
def State.afterShutdown (s : State) : State :=
  ((s.withWorld (shutdownWorld s)).withPhase .shutDown).withAnswer .none

/-- VIA_SHUTDOWN has no condition (R272, R198 corner case 4). -/
theorem exec_viaShutdown (s : State) : exec .viaShutdown s = .next s.afterShutdown := rfl

theorem Performs.shutdown (s : State) : Performs s [.shutdown] s.afterShutdown :=
  .single (i := .viaShutdown) rfl fun rest => exec_viaShutdown (s.queue rest)

/-- VIA_SHUTDOWN clears the answer, so the state it leaves does not show what was answered before. -/
theorem State.afterShutdown_withAnswer (s : State) (r : Answer) : (s.withAnswer r).afterShutdown = s.afterShutdown :=
  rfl

/-- VIA_SHUTDOWN makes one call per peripheral, whatever each reports. -/
theorem shutdownWorld_trace_length (s : State) :
    (shutdownWorld s).trace.length = s.world.trace.length + s.via.portA.length + s.via.portB.length := by
  simp [shutdownWorld_eq, World.afterReports, shutdownCalls, Nat.add_assoc]

/-! ## The teardown (R247, R249) -/

/-- With a snapshot or without, the teardown leaves what its VIA_SHUTDOWN leaves. -/
theorem performs_teardown {s : State} (hs : s.phase ≠ .shutDown) (e : Termination) :
    Performs s (teardown e) s.afterShutdown := by
  by_cases hclean : exitStatus e = 0
  · rw [teardown, if_pos hclean]
    exact .shutdown s
  · rw [teardown, if_neg hclean, ← s.afterShutdown_withAnswer]
    exact (Performs.snapshot hs).append (.shutdown _)

end Sys2Proof.Machine
end

section
/-! PROOFS. The obligations about the host (43_supervisor_host). -/

namespace Sys2Proof.Machine

/-- Settles O32: the answer is the first RAM_SIZE bytes of the RAM. -/
theorem snapshotReturnsTheRam : Obligations.SnapshotReturnsTheRam :=
  fun s hs => ⟨Memory.bytes s.ram s.params.ramSize, exec_ramSnapshot hs, Memory.bytes_length _ _,
    Memory.bytes_get _ _⟩

/-- Settles O48: the teardown comes to the state after VIA_SHUTDOWN, which keeps all but phase, answer and trace. -/
theorem teardownEndsEveryRun : Obligations.TeardownEndsEveryRun :=
  fun s e hs _ => ⟨s.afterShutdown, (performs_teardown hs e).run_eq, rfl, rfl, rfl, rfl, rfl,
    shutdownWorld_trace_length s⟩

end Sys2Proof.Machine
end

section
/-! PROOFS. The obligation about exceptions (60_exceptions). -/

namespace Sys2Proof.Machine

/-- Settles O49, by the kinds of operation: a host event and a transaction each look at halt before anything else. -/
theorem haltedMachineHasNoStep : Obligations.HaltedMachineHasNoStep :=
  fun _ _ _ hs hi => exec_halted hs hi

end Sys2Proof.Machine
end
